-- ==== Sys2Proof/Word.lean ====
section
/-! DEFINITION. The word types of the Chrolla NC40 and their plainest arithmetic (R7, R30, R74). -/

namespace Sys2Proof

/-- One byte of memory. -/
abbrev Byte := BitVec 8

/-- One register entry, one instruction word, one PC value: 32 bits (R12, R31, R57). -/
abbrev Word := BitVec 32

/-- A 64-bit value: a register pair, an address, a mask of lanes (R31, R154). -/
abbrev DWord := BitVec 64

/-- A lane of a warp, 0 to 63 (R135). -/
abbrev Lane := Nat

end Sys2Proof
end

