-- ==== Sys2Proof/Opcode.lean ====
section
/-! DEFINITION. The assigned opcodes of R65, one name each. TMOV.get and TMOV.set share one opcode (R308). -/

namespace Sys2Proof

/-- The assigned opcodes (R65, R66). -/
inductive Opcode where
  | iadd | iaddi | isub | iadd64 | isub64 | imul | imulhiS32 | imulhiN32 | imulwS32 | imulwN32 | idivS32 
  | idivN32 | iremS32 | iremN32 | iminS32 | iminN32 | imaxS32 | imaxN32 | iabs | iaddsatS32 | isubsatS32 
  | idot4S8 | and | or | xor | andn | andi | ori | xori | shl | shr | sar | rotl | shli | shri | sari | popc 
  | clz | brev | bfxN32 | bfxS32 | bfi | icmp | pcomb | pick | pread | pwrite | mov | movs | salu | salui 
  | srget | srset | movi | smovi | imad | fadd | fsub | fmul | ffma | ffms | ffnma | fmin | fmax | fcmp | fabs 
  | fneg | fclass | fscale | fround | faddH2 | fmulH2 | ffmaH2 | fminH2 | fmaxH2 | fcmpH2 | faddB2 | fmulB2 
  | ffmaB2 | fminB2 | fmaxB2 | fcmpB2 | frcp | frsq | fsqrt | fex2 | flg2 | fsin | fcos | ftanh | cvt | cvtpk 
  | fdot2B2 | cvtx | ffma4 | nop | bra | brx | bru | call | callx | ret | spawn | quit | yieldTurn | trap | bkpt 
  | tret | ldB8 | ldS8 | ldB16 | ldS16 | ldB32 | ldB64 | ldB128 | stB8 | stB16 | stB32 | stB64 | stB128 | lds 
  | sts | ldc | stc | ldx | stx | lea | atom | atomcas | red | fence | cctl | icinv | prefetch | shflIdx 
  | shflUp | shflDown | shflXor | vote | ballot | matchLanes | elect | redux | scan | readlane | barArrive 
  | barWait | barSync | barInit | barDrop | barTest | deqPush | deqPop | deqSteal | launch | regGrow | regShrink 
  | step | tcfg | tstat | tzero | tfree | mma | epi | copy | tcvt | tmov | namePub | nameGet | nameRetire 
  | nameDrop | pwrHint | lanechk 
  deriving DecidableEq, Repr

/-- The instruction categories of R50. -/
inductive Category where
  | alu | ctl | mem | tile
  deriving DecidableEq, Repr

end Sys2Proof
end

