-- ==== Sys2Proof/Fields.lean ====
section
/-! DEFINITION. The operand fields of the instruction words: guards, register fields, formats (R57 to R63) and the coded
fields of the instruction chapters, each a closed type with its code. -/

namespace Sys2Proof

/-- The number of a v or s register: a 6-bit field (R58). -/
abbrev Reg := Fin 64
/-- A predicate number, 7 names pt (R15). -/
abbrev Pred := Fin 8
/-- A tile register t0 to t15 (R276). -/
abbrev TileReg := Fin 16

/-- The guard of an instruction word: the sense bit [23] and the predicate number [22:20] (R57). -/
structure Guard where
  sense : Bool
  pred : Pred
  deriving DecidableEq, Repr

/-- Format F-A with three v registers (R58). -/
structure FmtA where
  g : Guard
  d : Reg
  a : Reg
  b : Reg
  fa : Bool
  fb : Bool
  deriving DecidableEq, Repr

/-- Format F-A of an instruction whose vb and fb are unused (R59). -/
structure FmtU where
  g : Guard
  d : Reg
  a : Reg
  fa : Bool
  deriving DecidableEq, Repr

/-- Format F-B: an 8-bit immediate (R58). -/
structure FmtB where
  g : Guard
  d : Reg
  a : Reg
  imm : BitVec 8
  deriving DecidableEq, Repr

/-- Format F-M: a memory access (R58, R61). `r` is vd of a load and vs of a store. -/
structure FmtM where
  g : Guard
  r : Reg
  vo : Reg
  sbase : Reg
  fa : Bool
  scale : Bool
  deriving DecidableEq, Repr

/-- The integer compare codes of R62. -/
inductive IntCmp where
  | eq | ne | lt | le | gt | ge | lo | hs
  deriving DecidableEq, Repr

/-- The floating compare codes of R62. -/
inductive FltCmp where
  | eq | ne | lt | le | gt | ge | un | num
  deriving DecidableEq, Repr

/-- Format F-P of ICMP (R83). -/
structure FmtPI where
  g : Guard
  pd : Pred
  cc : IntCmp
  a : Reg
  b : Reg
  fa : Bool
  fb : Bool
  deriving DecidableEq, Repr

/-- Format F-P of FCMP and its paired forms (R105, R109). -/
structure FmtPF where
  g : Guard
  pd : Pred
  cc : FltCmp
  a : Reg
  b : Reg
  fa : Bool
  fb : Bool
  deriving DecidableEq, Repr

/-- The rounding modes and their codes (R38). Codes 5 to 7 are reserved. -/
inductive RMode where
  | rne | rtz | rup | rdn | rsr
  deriving DecidableEq, Repr

/-- The scopes and their codes (R63). Code 7 is reserved. -/
inductive Scope where
  | warp | core | quad | cluster | die | package | domain
  deriving DecidableEq, Repr

/-- The cache policies and their codes (R63). -/
inductive Policy where
  | normal | stream | keep | bypassL1
  deriving DecidableEq, Repr

/-- The sub-operations of SALU and SALUI (R92). -/
inductive SaluOp where
  | add | sub | mul | and | or | xor | andn | shl | shr | sar | minS | minN | maxS | maxN | mov
  | seq | sne | sltS | sltN | sleS | sleN | add64 | addp64 | subp64 | popc | clz
  deriving DecidableEq, Repr

/-- The variants of IMAD (R90). -/
inductive ImadVar where
  | plain | wideS | wideN | sat
  deriving DecidableEq, Repr

/-- The special registers of R94. -/
inductive SpecReg where
  | laneid | warpid | groupx | groupy | groupz | gangrank | launchid | nwarps | depth | wbase | alloc | srgen
  | clklo | clkhi | retlo | rethi | svclevel | corenum
  | trcause | trinfo0 | trinfo1 | trpc | trhdr | trsave0 | trsave1
  deriving DecidableEq, Repr

/-- The element type of FFMA4 (R111). -/
inductive Ffma4Type where
  | f32 | h2 | b2
  deriving DecidableEq, Repr

/-- The scalar types a conversion names (R114 to R116). -/
inductive CvtType where
  | f32 | f16 | bf16 | e4 | e5 | s8 | n8 | s16 | n16 | s32 | n32 | s64 | n64
  deriving DecidableEq, Repr

/-- The selectors of CVTPK (R115). -/
inductive PackSel where
  | f16 | bf16 | e4 | e5
  deriving DecidableEq, Repr

/-- The size codes of LDX, STX and LEA (R131). -/
inductive MemSize where
  | b8 | s8 | b16 | s16 | b32 | b64 | b128
  deriving DecidableEq, Repr

/-- The operations of ATOM and RED (R254). -/
inductive AtomOp where
  | add | min | max | and | or | xor | exch | inc | dec
  deriving DecidableEq, Repr

/-- The types of ATOM and RED (R254). -/
inductive AtomType where
  | s32 | n32 | b32 | s64 | n64 | b64 | f32 | h2 | b2
  deriving DecidableEq, Repr

/-- The types of ATOMCAS (R257). -/
inductive CasType where
  | b32 | b64 | b16
  deriving DecidableEq, Repr

/-- The operations of CCTL (R261). -/
inductive CctlOp where
  | l1clean | l1inv | l2clean | l2evict
  deriving DecidableEq, Repr

/-- The modes of VOTE (R157). -/
inductive VoteMode where
  | all | any | same | odd
  deriving DecidableEq, Repr

/-- The operations of REDUX and SCAN (R161). -/
inductive RedOp where
  | add | min | max | and | or | xor
  deriving DecidableEq, Repr

/-- The types of REDUX and SCAN (R161). -/
inductive RedType where
  | s32 | n32 | f32 | b32
  deriving DecidableEq, Repr

/-- The end point of an engine command: memory, scratch or a tile (R304, R305). -/
inductive Endpoint where
  | memory | scratch | tile
  deriving DecidableEq, Repr

/-- The activations of EPI (R304). -/
inductive ActFn where
  | none | relu | gelu | silu
  deriving DecidableEq, Repr

/-- The modes of COPY (R305). -/
inductive CopyMode where
  | strided | gather | scatter
  deriving DecidableEq, Repr

/-- The power hints of PWR.HINT (R338). -/
inductive PwrHint where
  | automatic | memoryBound | computeBound
  deriving DecidableEq, Repr

/-- The barrier operand: a scope code of R63 from 1 to 6 and an index (R165). -/
structure BarOp where
  scope : Scope
  index : Fin 16
  deriving DecidableEq, Repr

/-- The memory operand of ATOM, RED and ATOMCAS (R253): `sp` selects scratch. -/
structure AtomAddr where
  vo : Reg
  sbase : Reg
  fa : Bool
  scale : Bool
  scope : Scope
  sp : Bool
  deriving DecidableEq, Repr

/-- The interleave tables (R207): the slice table and the channel table of a die, and the far-channel table. -/
inductive TableId where
  | slice (die : Fin 4) | channel (die : Fin 4) | far
  deriving DecidableEq, Repr

end Sys2Proof
end

