-- ==== Sys2Proof/Syntax.lean ====
section
/-! DEFINITION. The ONE type of instructions: a constructor for every row of spec/opcode_table.json. The first 174 are
instruction words (R65, R66); the 96 after them are the steps of the part's other agents, whose arguments are what the
outside world or the implementation chooses (which warp, which unit, a measured value, a payload). The steps without arguments stand last (the runtime numbers at most 244 constructors that have fields). -/

namespace Sys2Proof

inductive Instr where
  /-- IADD (0x00), R77. -/
  | iadd (f : FmtA)
  /-- IADDI (0x01), R82. -/
  | iaddi (f : FmtB)
  /-- ISUB (0x02), R77. -/
  | isub (f : FmtA)
  /-- IADD64 (0x03), R78. -/
  | iadd64 (f : FmtA)
  /-- ISUB64 (0x04), R78. -/
  | isub64 (f : FmtA)
  /-- IMUL (0x05), R77. -/
  | imul (f : FmtA)
  /-- IMULHI_S32 (0x06), R77. -/
  | imulhiS32 (f : FmtA)
  /-- IMULHI_N32 (0x07), R77. -/
  | imulhiN32 (f : FmtA)
  /-- IMULW_S32 (0x08), R78. -/
  | imulwS32 (f : FmtA)
  /-- IMULW_N32 (0x09), R78. -/
  | imulwN32 (f : FmtA)
  /-- IDIV_S32 (0x0A), R79. -/
  | idivS32 (f : FmtA)
  /-- IDIV_N32 (0x0B), R79. -/
  | idivN32 (f : FmtA)
  /-- IREM_S32 (0x0C), R79. -/
  | iremS32 (f : FmtA)
  /-- IREM_N32 (0x0D), R79. -/
  | iremN32 (f : FmtA)
  /-- IMIN_S32 (0x0E), R77. -/
  | iminS32 (f : FmtA)
  /-- IMIN_N32 (0x0F), R77. -/
  | iminN32 (f : FmtA)
  /-- IMAX_S32 (0x10), R77. -/
  | imaxS32 (f : FmtA)
  /-- IMAX_N32 (0x11), R77. -/
  | imaxN32 (f : FmtA)
  /-- IABS (0x12), R77. -/
  | iabs (f : FmtU)
  /-- IADDSAT_S32 (0x13), R77. -/
  | iaddsatS32 (f : FmtA)
  /-- ISUBSAT_S32 (0x14), R77. -/
  | isubsatS32 (f : FmtA)
  /-- IDOT4_S8 (0x15), R80. -/
  | idot4S8 (f : FmtA)
  /-- AND (0x18), R77. -/
  | and (f : FmtA)
  /-- OR (0x19), R77. -/
  | or (f : FmtA)
  /-- XOR (0x1A), R77. -/
  | xor (f : FmtA)
  /-- ANDN (0x1B), R77. -/
  | andn (f : FmtA)
  /-- ANDI (0x1C), R82. -/
  | andi (f : FmtB)
  /-- ORI (0x1D), R82. -/
  | ori (f : FmtB)
  /-- XORI (0x1E), R82. -/
  | xori (f : FmtB)
  /-- SHL (0x20), R77. -/
  | shl (f : FmtA)
  /-- SHR (0x21), R77. -/
  | shr (f : FmtA)
  /-- SAR (0x22), R77. -/
  | sar (f : FmtA)
  /-- ROTL (0x23), R77. -/
  | rotl (f : FmtA)
  /-- SHLI (0x24), R82. -/
  | shli (f : FmtB)
  /-- SHRI (0x25), R82. -/
  | shri (f : FmtB)
  /-- SARI (0x26), R82. -/
  | sari (f : FmtB)
  /-- POPC (0x28), R77. -/
  | popc (f : FmtU)
  /-- CLZ (0x29), R77. -/
  | clz (f : FmtU)
  /-- BREV (0x2A), R77. -/
  | brev (f : FmtU)
  /-- BFX_N32 (0x2B), R81. -/
  | bfxN32 (f : FmtA)
  /-- BFX_S32 (0x2C), R81. -/
  | bfxS32 (f : FmtA)
  /-- BFI (0x2D), R81. -/
  | bfi (f : FmtA)
  /-- ICMP (0x30), R83. -/
  | icmp (f : FmtPI)
  /-- PCOMB (0x31), R84. -/
  | pcomb (g : Guard) (pd : Pred) (pa : Pred) (pb : Pred) (table : BitVec 8)
  /-- PICK (0x32), R85. -/
  | pick (f : FmtA)
  /-- PREAD (0x33), R86. -/
  | pread (g : Guard) (d : Reg)
  /-- PWRITE (0x34), R86. -/
  | pwrite (g : Guard) (a : Reg) (b : Reg) (fa : Bool) (fb : Bool)
  /-- MOV (0x38), R77. -/
  | mov (f : FmtU)
  /-- MOVS (0x39), R87. -/
  | movs (g : Guard) (d : Reg) (sb : Reg) (fb : Bool)
  /-- SALU (0x3A), R92. -/
  | salu (op : SaluOp) (d : Reg) (a : Reg) (b : Reg)
  /-- SALUI (0x3B), R92. -/
  | salui (op : SaluOp) (d : Reg) (a : Reg) (imm : BitVec 6)
  /-- SRGET (0x3D), R93. -/
  | srget (g : Guard) (d : Reg) (n : SpecReg)
  /-- SRSET (0x3E), R93. -/
  | srset (g : Guard) (a : Reg) (n : SpecReg)
  /-- MOVI (0xE0), R88. -/
  | movi (g : Guard) (d : Reg) (imm : BitVec 32)
  /-- SMOVI (0xE1), R88. -/
  | smovi (g : Guard) (d : Reg) (imm : BitVec 32)
  /-- IMAD (0xE5), R90. -/
  | imad (f : FmtA) (c : Reg) (fc : Bool) (var : ImadVar)
  /-- FADD (0x40), R102. -/
  | fadd (f : FmtA)
  /-- FSUB (0x41), R102. -/
  | fsub (f : FmtA)
  /-- FMUL (0x42), R102. -/
  | fmul (f : FmtA)
  /-- FFMA (0x43), R102. -/
  | ffma (f : FmtA)
  /-- FFMS (0x44), R102. -/
  | ffms (f : FmtA)
  /-- FFNMA (0x45), R102. -/
  | ffnma (f : FmtA)
  /-- FMIN (0x46), R103. -/
  | fmin (f : FmtA)
  /-- FMAX (0x47), R103. -/
  | fmax (f : FmtA)
  /-- FCMP (0x48), R105. -/
  | fcmp (f : FmtPF)
  /-- FABS (0x49), R104. -/
  | fabs (f : FmtU)
  /-- FNEG (0x4A), R104. -/
  | fneg (f : FmtU)
  /-- FCLASS (0x4B), R106. -/
  | fclass (f : FmtU)
  /-- FSCALE (0x4C), R102. -/
  | fscale (f : FmtA)
  /-- FROUND (0x4D), R107. -/
  | fround (g : Guard) (d : Reg) (a : Reg) (fa : Bool) (mode : RMode)
  /-- FADD_H2 (0x50), R108. -/
  | faddH2 (f : FmtA)
  /-- FMUL_H2 (0x51), R108. -/
  | fmulH2 (f : FmtA)
  /-- FFMA_H2 (0x52), R108. -/
  | ffmaH2 (f : FmtA)
  /-- FMIN_H2 (0x53), R108. -/
  | fminH2 (f : FmtA)
  /-- FMAX_H2 (0x54), R108. -/
  | fmaxH2 (f : FmtA)
  /-- FCMP_H2 (0x55), R109. -/
  | fcmpH2 (f : FmtPF)
  /-- FADD_B2 (0x58), R108. -/
  | faddB2 (f : FmtA)
  /-- FMUL_B2 (0x59), R108. -/
  | fmulB2 (f : FmtA)
  /-- FFMA_B2 (0x5A), R108. -/
  | ffmaB2 (f : FmtA)
  /-- FMIN_B2 (0x5B), R108. -/
  | fminB2 (f : FmtA)
  /-- FMAX_B2 (0x5C), R108. -/
  | fmaxB2 (f : FmtA)
  /-- FCMP_B2 (0x5D), R109. -/
  | fcmpB2 (f : FmtPF)
  /-- FRCP (0x60), R112. -/
  | frcp (f : FmtU)
  /-- FRSQ (0x61), R112. -/
  | frsq (f : FmtU)
  /-- FSQRT (0x62), R112. -/
  | fsqrt (f : FmtU)
  /-- FEX2 (0x63), R112. -/
  | fex2 (f : FmtU)
  /-- FLG2 (0x64), R112. -/
  | flg2 (f : FmtU)
  /-- FSIN (0x65), R112. -/
  | fsin (f : FmtU)
  /-- FCOS (0x66), R112. -/
  | fcos (f : FmtU)
  /-- FTANH (0x67), R112. -/
  | ftanh (f : FmtU)
  /-- CVT (0x68), R114. -/
  | cvt (g : Guard) (d : Reg) (a : Reg) (fa : Bool) (dst : CvtType) (src : CvtType)
  /-- CVTPK (0x69), R115. -/
  | cvtpk (g : Guard) (d : Reg) (a : Reg) (fa : Bool) (sel : PackSel)
  /-- FDOT2_B2 (0x6B), R110. -/
  | fdot2B2 (f : FmtA)
  /-- CVTX (0xE2), R116. -/
  | cvtx (g : Guard) (d : Reg) (a : Reg) (fa : Bool) (dst : CvtType) (src : CvtType) (mode : RMode) (sat : Bool) (useSlot : Bool) (slot : Fin 8)
  /-- FFMA4 (0xE6), R111. -/
  | ffma4 (f : FmtA) (c : Reg) (fc : Bool) (mode : RMode) (ty : Ffma4Type) (np : Bool) (nc : Bool)
  /-- NOP (0x70), R118. -/
  | nop (g : Guard)
  /-- BRA (0x71), R118. -/
  | bra (g : Guard) (disp : BitVec 20)
  /-- BRX (0x72), R118. -/
  | brx (g : Guard) (a : Reg) (fa : Bool)
  /-- BRU (0x73), R119. -/
  | bru (g : Guard) (sa : Reg) (nz : Bool) (fs : Bool) (disp : BitVec 32)
  /-- CALL (0x74), R23. -/
  | call (g : Guard) (fc : Fin 8) (disp : BitVec 17)
  /-- CALLX (0x75), R23. -/
  | callx (g : Guard) (fc : Fin 8) (a : Reg) (fa : Bool)
  /-- RET (0x76), R24. -/
  | ret (g : Guard)
  /-- SPAWN (0x77), R123. -/
  | spawn (g : Guard) (d : Reg) (wo : Fin 64) (disp : BitVec 32)
  /-- QUIT (0x78), R124. -/
  | quit (g : Guard)
  /-- YIELD (0x79), R118. -/
  | yieldTurn (g : Guard)
  /-- TRAP (0x7A), R125. -/
  | trap (g : Guard) (code : BitVec 8)
  /-- BKPT (0x7B), R125. -/
  | bkpt (g : Guard) (code : BitVec 8)
  /-- TRET (0x7C), R126. -/
  | tret (g : Guard)
  /-- LD_B8 (0x80), R130. -/
  | ldB8 (f : FmtM)
  /-- LD_S8 (0x81), R130. -/
  | ldS8 (f : FmtM)
  /-- LD_B16 (0x82), R130. -/
  | ldB16 (f : FmtM)
  /-- LD_S16 (0x83), R130. -/
  | ldS16 (f : FmtM)
  /-- LD_B32 (0x84), R130. -/
  | ldB32 (f : FmtM)
  /-- LD_B64 (0x85), R130. -/
  | ldB64 (f : FmtM)
  /-- LD_B128 (0x86), R130. -/
  | ldB128 (f : FmtM)
  /-- ST_B8 (0x88), R130. -/
  | stB8 (f : FmtM)
  /-- ST_B16 (0x89), R130. -/
  | stB16 (f : FmtM)
  /-- ST_B32 (0x8A), R130. -/
  | stB32 (f : FmtM)
  /-- ST_B64 (0x8B), R130. -/
  | stB64 (f : FmtM)
  /-- ST_B128 (0x8C), R130. -/
  | stB128 (f : FmtM)
  /-- LDS (0x8D), R251. -/
  | lds (f : FmtM)
  /-- STS (0x8E), R251. -/
  | sts (f : FmtM)
  /-- LDC (0x8F), R251. -/
  | ldc (f : FmtM)
  /-- STC (0x90), R251. -/
  | stc (f : FmtM)
  /-- LDX (0xE3), R131. -/
  | ldx (f : FmtM) (off : BitVec 24) (size : MemSize) (pol : Policy) (scope : Scope)
  /-- STX (0xE4), R131. -/
  | stx (f : FmtM) (off : BitVec 24) (size : MemSize) (pol : Policy) (scope : Scope)
  /-- LEA (0xE7), R133. -/
  | lea (f : FmtM) (off : BitVec 24) (size : MemSize)
  /-- ATOM (0x91), R256. -/
  | atom (g : Guard) (d : Reg) (m : AtomAddr) (b : Reg) (fb : Bool) (op : AtomOp) (ty : AtomType)
  /-- ATOMCAS (0x92), R257. -/
  | atomcas (g : Guard) (d : Reg) (m : AtomAddr) (b : Reg) (fb : Bool) (c : Reg) (fc : Bool) (ty : CasType) (pd : Pred)
  /-- RED (0x93), R258. -/
  | red (g : Guard) (m : AtomAddr) (b : Reg) (fb : Bool) (op : AtomOp) (ty : AtomType)
  /-- FENCE (0x94), R260. -/
  | fence (g : Guard) (scope : Scope)
  /-- CCTL (0x95), R261. -/
  | cctl (g : Guard) (op : CctlOp) (vo : Reg) (sbase : Reg) (fa : Bool) (scale : Bool)
  /-- ICINV (0x96), R262. -/
  | icinv (g : Guard) (scope : Scope) (vo : Reg) (sbase : Reg) (fa : Bool) (scale : Bool)
  /-- PREFETCH (0x97), R264. -/
  | prefetch (g : Guard) (sliceOnly : Bool) (vo : Reg) (sbase : Reg) (fa : Bool) (scale : Bool)
  /-- SHFL_IDX (0xB0), R156. -/
  | shflIdx (f : FmtA)
  /-- SHFL_UP (0xB1), R156. -/
  | shflUp (f : FmtA)
  /-- SHFL_DOWN (0xB2), R156. -/
  | shflDown (f : FmtA)
  /-- SHFL_XOR (0xB3), R156. -/
  | shflXor (f : FmtA)
  /-- VOTE (0xB4), R157. -/
  | vote (g : Guard) (pd : Pred) (mode : VoteMode) (ps : Pred)
  /-- BALLOT (0xB5), R158. -/
  | ballot (g : Guard) (d : Reg) (ps : Pred)
  /-- MATCH (0xB6), R159. -/
  | matchLanes (f : FmtU)
  /-- ELECT (0xB7), R160. -/
  | elect (g : Guard) (pd : Pred) (d : Reg)
  /-- REDUX (0xB8), R162. -/
  | redux (f : FmtU) (op : RedOp) (ty : RedType) (mode : RMode)
  /-- SCAN (0xB9), R162. -/
  | scan (f : FmtU) (op : RedOp) (ty : RedType) (mode : RMode) (ex : Bool)
  /-- READLANE (0xBA), R163. -/
  | readlane (g : Guard) (d : Reg) (a : Reg) (sb : Reg) (fa : Bool) (fb : Bool)
  /-- BAR_ARRIVE (0xC0), R167. -/
  | barArrive (g : Guard) (o : BarOp)
  /-- BAR_WAIT (0xC1), R167. -/
  | barWait (g : Guard) (o : BarOp)
  /-- BAR_SYNC (0xC2), R167. -/
  | barSync (g : Guard) (o : BarOp)
  /-- BAR_INIT (0xC3), R169. -/
  | barInit (g : Guard) (a : Reg) (o : BarOp)
  /-- BAR_DROP (0xC4), R169. -/
  | barDrop (g : Guard) (o : BarOp)
  /-- BAR_TEST (0xC5), R168. -/
  | barTest (g : Guard) (pd : Pred) (o : BarOp)
  /-- DEQ_PUSH (0xC8), R187. -/
  | deqPush (g : Guard) (vs : Reg) (a : Reg) (fa : Bool)
  /-- DEQ_POP (0xC9), R187. -/
  | deqPop (g : Guard) (d : Reg) (vs : Reg)
  /-- DEQ_STEAL (0xCA), R187. -/
  | deqSteal (g : Guard) (d : Reg) (vs : Reg)
  /-- LAUNCH (0xCB), R185. -/
  | launch (g : Guard) (d : Reg) (a : Reg) (sb : Reg) (fa : Bool) (fb : Bool)
  /-- REG_GROW (0xCC), R189. -/
  | regGrow (g : Guard) (n : BitVec 8)
  /-- REG_SHRINK (0xCD), R190. -/
  | regShrink (g : Guard) (n : BitVec 8)
  /-- STEP (0xCE), R192. -/
  | step (g : Guard) (d : Reg) (sb : Reg) (fb : Bool)
  /-- TCFG (0xD0), R295. -/
  | tcfg (g : Guard) (t : TileReg) (sb : Reg) (fb : Bool)
  /-- TSTAT (0xD1), R295. -/
  | tstat (g : Guard) (d : Reg) (t : TileReg)
  /-- TZERO (0xD2), R295. -/
  | tzero (g : Guard) (t : TileReg)
  /-- TFREE (0xD3), R295. -/
  | tfree (g : Guard) (t : TileReg)
  /-- MMA (0xD4), R302. -/
  | mma (g : Guard) (sp : Reg) (ta : TileReg) (tb : TileReg) (slot : Fin 8) (opn : Bool) (cls : Bool) (neg : Bool)
  /-- EPI (0xD5), R304. -/
  | epi (g : Guard) (sp : Reg) (t : TileReg) (dst : Endpoint) (act : ActFn) (fslot : Fin 8) (rsc : Bool) (csc : Bool) (rbi : Bool) (cbi : Bool) (pol : Policy)
  /-- COPY (0xD6), R305. -/
  | copy (g : Guard) (sp : Reg) (t : TileReg) (src : Endpoint) (dst : Endpoint) (mode : CopyMode) (esz : Fin 8) (pol : Policy)
  /-- TCVT (0xD7), R307. -/
  | tcvt (g : Guard) (m : Bool) (mode : RMode) (ta : TileReg) (t : TileReg)
  /-- TMOV_GET (0xD8), R308. -/
  | tmovGet (g : Guard) (d : Reg) (t : TileReg) (b : Reg) (fb : Bool)
  /-- TMOV_SET (0xD8), R308. -/
  | tmovSet (g : Guard) (v : Reg) (t : TileReg) (b : Reg) (fa : Bool) (fb : Bool)
  /-- NAME_PUB (0xF0), R383. -/
  | namePub (g : Guard) (t : TileReg) (sb : Reg) (fb : Bool)
  /-- NAME_GET (0xF1), R383. -/
  | nameGet (g : Guard) (t : TileReg) (sb : Reg) (fb : Bool)
  /-- NAME_RETIRE (0xF2), R383. -/
  | nameRetire (g : Guard) (sb : Reg) (fb : Bool)
  /-- NAME_DROP (0xF3), R383. -/
  | nameDrop (g : Guard) (t : TileReg)
  /-- PWR_HINT (0xF8), R338. -/
  | pwrHint (g : Guard) (h : PwrHint)
  /-- LANECHK (0xF9), R339. -/
  | lanechk (g : Guard) (d : Reg) (groups : BitVec 4)
  /-- LONG_LATENCY_WRITEBACK, R18: A long-latency producer writes its destination entry and marks it full. -/
  | longLatencyWriteback (lid : BitVec 32) (w num lane : Nat)
  /-- STEERING_ADOPTION, R143: A warp adopts the new steering table at its next pre-emption point, moving entries through ECC. -/
  | steeringAdoption (lid : BitVec 32) (w : Nat) (bad : List (Nat × Nat))
  /-- DOMAIN_BARRIER_ARRIVAL, R376: A package's arrival at a domain barrier reaches the root package. -/
  | domainBarrierArrival (lid : BitVec 32) (index kind value : Nat)
  /-- DOMAIN_BARRIER_COMPLETION, R376: The root's completion message reaches a member package, releasing its waiting warps. -/
  | domainBarrierCompletion (lid : BitVec 32) (index order : Nat)
  /-- LAUNCH_RECORD_READ, R182: The front end reads, validates and copies a queue's head record and advances CONS. -/
  | launchRecordRead (queue others : Nat)
  /-- QCTL_WRITE, R181: Writing QCTL enables or disables a launch queue, setting QCONS or CFGERR. -/
  | qctlWrite (queue : Nat) (v : BitVec 32)
  /-- DETLID_WRITE, R243: Writing DETLID names a launch and clears its conflict count. -/
  | detlidWrite (v : BitVec 32)
  /-- VIOLLID_WRITE, R349: Writing VIOLLID names a launch and clears VIOLCNT. -/
  | viollidWrite (v : BitVec 32)
  /-- ADMVIOL_READ, R349: Reading ADMVIOL returns the cluster's budget violations and clears them. -/
  | admviolRead (cluster : Nat)
  /-- REG_GROW_GRANT, R189: The core grants a waiting warp its further entries and completes REG.GROW. -/
  | regGrowGrant (core : Nat)
  /-- STALL_SWAP_OUT, R191: A stalled core swaps out the group of the REG.GROW waiter with the highest key. -/
  | stallSwapOut (core : Nat)
  /-- STEP_BOUNDARY, R192: When every live warp is counted, the launch's step number advances and warps are released. -/
  | stepBoundary (lid : BitVec 32)
  /-- CHECKPOINT_COPY_DONE, R389: The background checkpoint copies finish or fail and DONE sets. -/
  | checkpointCopyDone (copy written : Nat)
  /-- BANKROLE_WRITE, R201: Writing a bank role register changes roles or is refused while a group is resident. -/
  | bankroleWrite (core : Nat) (high : Bool) (v : BitVec 32)
  /-- UNIT_RETIREMENT, R336: A unit that failed a self-check retires by the steps for its kind. -/
  | unitRetirement (core kind unit : Nat)
  /-- EVACUATION_LINE_COPY, R210: One line of a moving bucket is copied to its new unit, completing the bucket after its last line. -/
  | evacuationLineCopy (t : TableId) (bad : Bool)
  /-- UNIT_FAILED, R211: A unit that cannot be retired fails and a UNIT_FAILED notice is posted. -/
  | unitFailed (t : TableId) (unit : Nat) (sectors : List Nat)
  /-- PAGE_WALK, R216: A table walk completes, giving a translation or a fault. -/
  | pageWalk (die root va : Nat)
  /-- TLBI_GO, R220: Writing GO in TLBI_CTL starts an invalidation or sets ERR. -/
  | tlbiGo (v : BitVec 32)
  /-- LEASE_RECALL, R229: A home slice recalls a line's copies from the cores that hold them. -/
  | leaseRecall (line core : Nat)
  /-- FENCE_RESOLVE, R238: A fence resolves, releasing the store gate and clearing marks. -/
  | fenceResolve (lid : BitVec 32) (w : Nat)
  /-- SPECULATIVE_ROLLBACK, R240: A recall of a mark rolls a speculative warp back to its fence. -/
  | speculativeRollback (lid : BitVec 32) (w line : Nat)
  /-- DET_ATOMIC_APPLY, R245: A home slice applies a queued deterministic atomic once every horizon has passed its key. -/
  | detAtomicApply (lid : BitVec 32)
  /-- STORE_GATE_RELEASE, R329: A store or held effect leaves the store gate after 64 clocks. -/
  | storeGateRelease (lid : BitVec 32) (w num lane : Nat)
  /-- ICINV_COMPLETE, R263: Every core of the scope has dropped its copies and the ICINV completes. -/
  | icinvComplete (lid : BitVec 32) (w : Nat)
  /-- COMMAND_ADMISSION, R310: The cluster power scheduler admits an engine command against energy and peak. -/
  | commandAdmission (cluster : Nat)
  /-- ENGINE_STOP, R299: An engine command stops at its stop point or at a faulting iteration. -/
  | engineStop (core cmd upto : Nat)
  /-- ENGINE_END, R300: An engine command meeting a non-restartable fault ends. -/
  | engineEnd (core cmd : Nat)
  /-- COLUMN_RESIDUE_MISMATCH, R303: A matrix column's residue check fails, the column retires and the command reruns from its stop point. -/
  | columnResidueMismatch (core column : Nat)
  /-- MMA_COMPLETION, R302: An MMA completes its reads, close, release and barrier arrival. -/
  | mmaCompletion (core cmd energy : Nat)
  /-- EPI_COMPLETION, R304: An EPI's writes enter the order and its slot is consumed. -/
  | epiCompletion (core cmd energy : Nat)
  /-- COPY_COMPLETION, R305: A COPY's writes enter the order and its locks are released. -/
  | copyCompletion (core cmd energy : Nat)
  /-- TCVT_COMPLETION, R307: A tile conversion completes its read and fill. -/
  | tcvtCompletion (core cmd : Nat)
  /-- FAULT_RECORD_POST, R316: A service or notice record is written to the die fault queue when it has room. -/
  | faultRecordPost (die : Nat)
  /-- FQCTL_WRITE, R317: Writing FQCTL enables or disables the fault ring, setting FQPROD or CFGERR. -/
  | fqctlWrite (die : Nat) (v : BitVec 32)
  /-- FQRESP_RESUME, R318: The runtime answers a record with resume. -/
  | fqrespResume (die : Nat) (tag : BitVec 32)
  /-- FQRESP_DELIVER, R318: The runtime answers a record with deliver, making its cause a deferred handler cause. -/
  | fqrespDeliver (die : Nat) (tag : BitVec 32)
  /-- FQRESP_END, R318: The runtime answers a record with end, ending the group. -/
  | fqrespEnd (die : Nat) (tag : BitVec 32)
  /-- SERVICE_SWAP_OUT, R319: A group waiting on service longer than DELAY is swapped out. -/
  | serviceSwapOut (lid : BitVec 32) (g : Nat)
  /-- SWAPREQ, R322: Writing SWAPREQ_G swaps out the named group with its gang. -/
  | swapreq (v : BitVec 32)
  /-- SWAP_OUT, R321: A group is stopped, drained and written as a swap image to the save pool. -/
  | swapOut (lid : BitVec 32) (g : Nat)
  /-- DROOP_REPORT, R331: A droop report rolls back suspect instructions and commands of the cluster. -/
  | droopReport (cluster : Nat) (suspect : List (BitVec 32 × Nat × Nat))
  /-- SELF_TEST, R335: Periodic or idle-slot self-test checks units. -/
  | selfTest (core groups : Nat)
  /-- FICTL_WRITE, R337: Writing FICTL arms fault injection or sets ERR. -/
  | fictlWrite (v : BitVec 32)
  /-- TELEMETRY_FRAME, R340: A telemetry frame updates FREQ and VBUS and re-forms TARGET. -/
  | telemetryFrame (frame : List (BitVec 8))
  /-- STEP_FRAME, R340: A step frame sets or releases the step ceiling. -/
  | stepFrame (frame : List (BitVec 8))
  /-- GRID_CONFIG_WRITE, R344: A write to a grid control register re-forms TARGET. -/
  | gridConfigWrite (offset : Nat) (v : BitVec 32)
  /-- THROTTLE_INTERVAL, R345: Every 50 µs the controller engages or releases one throttle action. -/
  | throttleInterval (power : Nat)
  /-- LANE_GROUP_RETENTION, R351: A core changes its number of live lane groups. -/
  | laneGroupRetention (core used : Nat)
  /-- CLUSTER_RETENTION_ENTRY, R352: An idle cluster saves its groups and enters retention. -/
  | clusterRetentionEntry (cluster : Nat)
  /-- CLUSTER_WAKE, R354: A retained cluster wakes, checking parity or reloading its images. -/
  | clusterWake (cluster mismatches : Nat)
  /-- CRETMISS_READ, R354: Reading CRETMISS returns the parity mismatch count and clears it. -/
  | cretmissRead (cluster : Nat)
  /-- PEER_REQUEST, R370: A peer access arrives at its target and is performed in flow order or refused. -/
  | peerRequest (src core seq kind addr : Nat) (epoch late more : Bool) (op : AtomOp) (ty : AtomType) (data : List (BitVec 8))
  /-- PEER_RESPONSE, R371: A peer response arrives and completes the access at the initiator. -/
  | peerResponse (core dest seq : Nat) (epoch : Bool) (data : List (BitVec 8))
  /-- PEER_FAULT_RESPONSE, R373: A fault response becomes a deferred REMOTE_FAULT. -/
  | peerFaultResponse (core dest seq : Nat) (epoch : Bool) (cause reason : Nat)
  /-- PEER_TIMEOUT, R372: The tracker gives up on a peer request after RTIMEOUT, closing the flow. -/
  | peerTimeout (core dest seq : Nat)
  /-- PFLOG_CTL_WRITE, R375: Writing PFLOG_CTL enables the peer-fault ring or sets CFGERR. -/
  | pflogCtlWrite (v : BitVec 32)
  /-- INTEREST, R378: An interest reaches a hub and is served, merged, refused or forwarded. -/
  | interestMsg (src tensor tile iter life : Nat)
  /-- TILE, R380: A tile reaches a hub and is sent to faces, stored and passed on. -/
  | tileMsg (tensor tile iter control slot : Nat) (image : List (BitVec 8)) (up : Bool)
  /-- END, R381: An End message ends every face of a name. -/
  | endMsg (tensor tile iter : Nat) (retired : Bool) (reason : Nat)
  /-- RETIRE, R383: A Retire reaches a hub and is passed on or recorded as retired. -/
  | retireMsg (tensor tile iter : Nat)
  /-- RESTORE_COMPLETE, R392: A restore chooses the highest complete set or reports failure. -/
  | restoreComplete (buddy peer : List (List (BitVec 8)))
  /-- MEAS_EXTEND, R393: Writing MEXTCTL GO extends MEAS6 or MEAS7 with MEXTBUF. -/
  | measExtend (v : BitVec 32)
  /-- MAAR_QUOTE_REQUEST, R394: A quote request over the Maar management path returns a quote. -/
  | maarQuoteRequest (nonce : List (BitVec 8)) (sel : BitVec 8)
  /-- IFT_GO, R395: Writing GO in IFTCTL starts an in-field test of a cluster. -/
  | iftGo (v : BitVec 32)
  /-- IFT_COMPLETE, R395: An in-field test ends in pass or fail and the cluster returns. -/
  | iftComplete (failed : List (Nat × Nat × Nat)) (aborted : Bool)
  /-- BOOT_STAGE, R393: A boot stage is verified, measured and run. -/
  | bootStage (stage : Nat) (key signature image : List (BitVec 8)) (trained tested : Bool)
  /-- HOST_WINDOW_ACCESS, R386: A host access through a PCIe window enters the package order. -/
  | hostWindowAccess (window offset size : Nat) (store : Bool) (data : BitVec 128)
  /-- REGISTER_WRITE, R385: A write to a control register with no behaviour of its own sets its fields. -/
  | registerWrite (offset : Nat) (v : BitVec 32)
  /-- UNASSIGNED_OPCODE_ISSUE, R65: An instruction word whose opcode is unassigned, such as the 0xFF fill or 0xFFFF_FFFF padding, is issued and takes ILLEGAL_OPCODE in every fibre of the issuing set. -/
  | unassignedOpcodeIssue (w : BitVec 32)
  /-- CLAUSE_ENTRY, R51: Fibres enter a clause header, which is fetched, checked and waited on under its wait mask. -/
  | clauseEntry
  /-- LAUNCH_START, R183: The front end starts an eligible launch and gives it a die set. -/
  | launchStart
  /-- GANG_PLACEMENT, R184: A die distributor places a gang on cores of greatest weight. -/
  | gangPlacement
  /-- COMPLETION_WORD_WRITE, R180: The front end writes the completion word once the launch's writes are visible. -/
  | completionWordWrite
  /-- DETCNT_READ, R243: Reading DETCNT returns the conflict count and clears it. -/
  | detcntRead
  /-- VIOLCNT_READ, R349: Reading VIOLCNT returns the launch's violations and clears them. -/
  | violcntRead
  /-- SERVICE_LEVEL_CHANGE, R387: The module reaches a new service level and SVCSTAT changes. -/
  | serviceLevelChange
  /-- TLBI_COMPLETE, R220: An invalidation completes, BUSY clears and GEN rises. -/
  | tlbiComplete
  /-- HORIZON_PUBLISH, R245: Every 64 clocks each core publishes its horizon for each deterministic launch. -/
  | horizonPublish
  /-- ADMISSION_INTERVAL, R350: At each 8 µs interval a cluster refills its balance or pays debt. -/
  | admissionInterval
  /-- STEP_ACKNOWLEDGEMENT, R340: 1 ms after accepting a step frame the module sends an acknowledgement. -/
  | stepAcknowledgement
  /-- LINK_LOST, R341: 10 ms without valid telemetry sets LINKLOST. -/
  | linkLost
  /-- SHED_DEADLINE, R348: SHEDDL after marking, a warp stops at its next pre-emption point. -/
  | shedDeadline
  /-- BACKSTOP, R347: 600 µs of over-target power steps every cluster to 1.2 GHz. -/
  | backstop
  /-- FRAMEERR_READ, R342: Reading FRAMEERR returns the discarded-frame count and clears it. -/
  | frameerrRead
  /-- DRAIN, R355: Loss of input voltage drains the device to flash. -/
  | drain
  /-- POWER_RETURN, R357: Power returning within the hold time resumes from the drain image. -/
  | powerReturn
  /-- HOLD_EXPIRY, R358: The 90 s hold ends without power and the drain image becomes stale. -/
  | holdExpiry
  /-- TSCTL_FLUSH, R375: Writing FLUSH drops every stored tile that is not pinned. -/
  | tsctlFlush
  /-- NAMEREF_READ, R375: Reading NAMEREF returns the refused-interest count and clears it. -/
  | namerefRead
  /-- FACE_EXPIRY, R379: At each µs a hub removes expired faces. -/
  | faceExpiry
  /-- RESTORE_GO, R392: Writing GO in RSCTL starts a checkpoint restore. -/
  | restoreGo
  /-- QUOTE_REQUEST, R394: Writing ATCTL GO builds a signed attestation quote. -/
  | quoteRequest
  /-- POWER_GOOD, R5: Module reset at power-good starts bring-up toward S0. -/
  | powerGood
  /-- DISCARDED_FRAME, R340: A Utwell frame with a bad CRC, an unknown TYPE or a non-zero reserved byte is discarded and counted in FRAMEERR. -/
  | discardedFrame
  /-- QUOTE_COMPLETE, R394: The attestation quote finishes building, appears at QUOTE and ATCTL.BUSY clears. -/
  | quoteComplete
  deriving DecidableEq, Repr

end Sys2Proof
end

