-- ==== Sys2Proof/Machine/Codes.lean ====
section
/-! DEFINITION. The codes of the coded fields, the opcode map with its categories (R50, R65, R66), and the checks that an
instruction's fields must pass beyond their widths (R59 to R64 and the instruction chapters). -/

namespace Sys2Proof

/-- The code of each IntCmp (R62). -/
def IntCmp.code : IntCmp → Nat
  | .eq => 0 | .ne => 1 | .lt => 2 | .le => 3 | .gt => 4 | .ge => 5 | .lo => 6 | .hs => 7

/-- The IntCmp that a code names; a reserved code names none (R62). -/
def IntCmp.ofCode : Nat → Option IntCmp
  | 0 => some .eq | 1 => some .ne | 2 => some .lt | 3 => some .le | 4 => some .gt | 5 => some .ge 
  | 6 => some .lo | 7 => some .hs | _ => none

/-- The code of each FltCmp (R62). -/
def FltCmp.code : FltCmp → Nat
  | .eq => 0 | .ne => 1 | .lt => 2 | .le => 3 | .gt => 4 | .ge => 5 | .un => 6 | .num => 7

/-- The FltCmp that a code names; a reserved code names none (R62). -/
def FltCmp.ofCode : Nat → Option FltCmp
  | 0 => some .eq | 1 => some .ne | 2 => some .lt | 3 => some .le | 4 => some .gt | 5 => some .ge 
  | 6 => some .un | 7 => some .num | _ => none

/-- The code of each RMode (R38). -/
def RMode.code : RMode → Nat
  | .rne => 0 | .rtz => 1 | .rup => 2 | .rdn => 3 | .rsr => 4

/-- The RMode that a code names; a reserved code names none (R38). -/
def RMode.ofCode : Nat → Option RMode
  | 0 => some .rne | 1 => some .rtz | 2 => some .rup | 3 => some .rdn | 4 => some .rsr | _ => none

/-- The code of each Scope (R63). -/
def Scope.code : Scope → Nat
  | .warp => 0 | .core => 1 | .quad => 2 | .cluster => 3 | .die => 4 | .package => 5 | .domain => 6

/-- The Scope that a code names; a reserved code names none (R63). -/
def Scope.ofCode : Nat → Option Scope
  | 0 => some .warp | 1 => some .core | 2 => some .quad | 3 => some .cluster | 4 => some .die 
  | 5 => some .package | 6 => some .domain | _ => none

/-- The code of each Policy (R63). -/
def Policy.code : Policy → Nat
  | .normal => 0 | .stream => 1 | .keep => 2 | .bypassL1 => 3

/-- The Policy that a code names; a reserved code names none (R63). -/
def Policy.ofCode : Nat → Option Policy
  | 0 => some .normal | 1 => some .stream | 2 => some .keep | 3 => some .bypassL1 | _ => none

/-- The code of each SaluOp (R92). -/
def SaluOp.code : SaluOp → Nat
  | .add => 0 | .sub => 1 | .mul => 2 | .and => 3 | .or => 4 | .xor => 5 | .andn => 6 | .shl => 7 
  | .shr => 8 | .sar => 9 | .minS => 10 | .minN => 11 | .maxS => 12 | .maxN => 13 | .mov => 14 
  | .seq => 16 | .sne => 17 | .sltS => 18 | .sltN => 19 | .sleS => 20 | .sleN => 21 | .add64 => 24 
  | .addp64 => 25 | .subp64 => 26 | .popc => 28 | .clz => 29

/-- The SaluOp that a code names; a reserved code names none (R92). -/
def SaluOp.ofCode : Nat → Option SaluOp
  | 0 => some .add | 1 => some .sub | 2 => some .mul | 3 => some .and | 4 => some .or | 5 => some .xor 
  | 6 => some .andn | 7 => some .shl | 8 => some .shr | 9 => some .sar | 10 => some .minS | 11 => some .minN 
  | 12 => some .maxS | 13 => some .maxN | 14 => some .mov | 16 => some .seq | 17 => some .sne 
  | 18 => some .sltS | 19 => some .sltN | 20 => some .sleS | 21 => some .sleN | 24 => some .add64 
  | 25 => some .addp64 | 26 => some .subp64 | 28 => some .popc | 29 => some .clz | _ => none

/-- The code of each ImadVar (R90). -/
def ImadVar.code : ImadVar → Nat
  | .plain => 0 | .wideS => 1 | .wideN => 2 | .sat => 3

/-- The ImadVar that a code names; a reserved code names none (R90). -/
def ImadVar.ofCode : Nat → Option ImadVar
  | 0 => some .plain | 1 => some .wideS | 2 => some .wideN | 3 => some .sat | _ => none

/-- The code of each SpecReg (R94). -/
def SpecReg.code : SpecReg → Nat
  | .laneid => 0 | .warpid => 1 | .groupx => 2 | .groupy => 3 | .groupz => 4 | .gangrank => 5 
  | .launchid => 6 | .nwarps => 7 | .depth => 8 | .wbase => 9 | .alloc => 10 | .srgen => 11 
  | .clklo => 12 | .clkhi => 13 | .retlo => 14 | .rethi => 15 | .svclevel => 16 | .corenum => 17 
  | .trcause => 32 | .trinfo0 => 33 | .trinfo1 => 34 | .trpc => 35 | .trhdr => 36 | .trsave0 => 37 
  | .trsave1 => 38

/-- The SpecReg that a code names; a reserved code names none (R94). -/
def SpecReg.ofCode : Nat → Option SpecReg
  | 0 => some .laneid | 1 => some .warpid | 2 => some .groupx | 3 => some .groupy | 4 => some .groupz 
  | 5 => some .gangrank | 6 => some .launchid | 7 => some .nwarps | 8 => some .depth | 9 => some .wbase 
  | 10 => some .alloc | 11 => some .srgen | 12 => some .clklo | 13 => some .clkhi | 14 => some .retlo 
  | 15 => some .rethi | 16 => some .svclevel | 17 => some .corenum | 32 => some .trcause | 33 => some .trinfo0 
  | 34 => some .trinfo1 | 35 => some .trpc | 36 => some .trhdr | 37 => some .trsave0 | 38 => some .trsave1 | _ => none

/-- The code of each Ffma4Type (R111). -/
def Ffma4Type.code : Ffma4Type → Nat
  | .f32 => 0 | .h2 => 1 | .b2 => 2

/-- The Ffma4Type that a code names; a reserved code names none (R111). -/
def Ffma4Type.ofCode : Nat → Option Ffma4Type
  | 0 => some .f32 | 1 => some .h2 | 2 => some .b2 | _ => none

/-- The code of each CvtType (R116). -/
def CvtType.code : CvtType → Nat
  | .f32 => 0 | .f16 => 1 | .bf16 => 2 | .e4 => 3 | .e5 => 4 | .s8 => 5 | .n8 => 6 | .s16 => 7 
  | .n16 => 8 | .s32 => 9 | .n32 => 10 | .s64 => 11 | .n64 => 12

/-- The CvtType that a code names; a reserved code names none (R116). -/
def CvtType.ofCode : Nat → Option CvtType
  | 0 => some .f32 | 1 => some .f16 | 2 => some .bf16 | 3 => some .e4 | 4 => some .e5 | 5 => some .s8 
  | 6 => some .n8 | 7 => some .s16 | 8 => some .n16 | 9 => some .s32 | 10 => some .n32 | 11 => some .s64 
  | 12 => some .n64 | _ => none

/-- The code of each PackSel (R115). -/
def PackSel.code : PackSel → Nat
  | .f16 => 0 | .bf16 => 1 | .e4 => 2 | .e5 => 3

/-- The PackSel that a code names; a reserved code names none (R115). -/
def PackSel.ofCode : Nat → Option PackSel
  | 0 => some .f16 | 1 => some .bf16 | 2 => some .e4 | 3 => some .e5 | _ => none

/-- The code of each MemSize (R131). -/
def MemSize.code : MemSize → Nat
  | .b8 => 0 | .s8 => 1 | .b16 => 2 | .s16 => 3 | .b32 => 4 | .b64 => 5 | .b128 => 6

/-- The MemSize that a code names; a reserved code names none (R131). -/
def MemSize.ofCode : Nat → Option MemSize
  | 0 => some .b8 | 1 => some .s8 | 2 => some .b16 | 3 => some .s16 | 4 => some .b32 | 5 => some .b64 
  | 6 => some .b128 | _ => none

/-- The code of each AtomOp (R254). -/
def AtomOp.code : AtomOp → Nat
  | .add => 0 | .min => 1 | .max => 2 | .and => 3 | .or => 4 | .xor => 5 | .exch => 6 | .inc => 7 
  | .dec => 8

/-- The AtomOp that a code names; a reserved code names none (R254). -/
def AtomOp.ofCode : Nat → Option AtomOp
  | 0 => some .add | 1 => some .min | 2 => some .max | 3 => some .and | 4 => some .or | 5 => some .xor 
  | 6 => some .exch | 7 => some .inc | 8 => some .dec | _ => none

/-- The code of each AtomType (R254). -/
def AtomType.code : AtomType → Nat
  | .s32 => 0 | .n32 => 1 | .b32 => 2 | .s64 => 3 | .n64 => 4 | .b64 => 5 | .f32 => 6 | .h2 => 7 
  | .b2 => 8

/-- The AtomType that a code names; a reserved code names none (R254). -/
def AtomType.ofCode : Nat → Option AtomType
  | 0 => some .s32 | 1 => some .n32 | 2 => some .b32 | 3 => some .s64 | 4 => some .n64 | 5 => some .b64 
  | 6 => some .f32 | 7 => some .h2 | 8 => some .b2 | _ => none

/-- The code of each CasType (R257). -/
def CasType.code : CasType → Nat
  | .b32 => 0 | .b64 => 1 | .b16 => 2

/-- The CasType that a code names; a reserved code names none (R257). -/
def CasType.ofCode : Nat → Option CasType
  | 0 => some .b32 | 1 => some .b64 | 2 => some .b16 | _ => none

/-- The code of each CctlOp (R261). -/
def CctlOp.code : CctlOp → Nat
  | .l1clean => 0 | .l1inv => 1 | .l2clean => 2 | .l2evict => 3

/-- The CctlOp that a code names; a reserved code names none (R261). -/
def CctlOp.ofCode : Nat → Option CctlOp
  | 0 => some .l1clean | 1 => some .l1inv | 2 => some .l2clean | 3 => some .l2evict | _ => none

/-- The code of each VoteMode (R157). -/
def VoteMode.code : VoteMode → Nat
  | .all => 0 | .any => 1 | .same => 2 | .odd => 3

/-- The VoteMode that a code names; a reserved code names none (R157). -/
def VoteMode.ofCode : Nat → Option VoteMode
  | 0 => some .all | 1 => some .any | 2 => some .same | 3 => some .odd | _ => none

/-- The code of each RedOp (R161). -/
def RedOp.code : RedOp → Nat
  | .add => 0 | .min => 1 | .max => 2 | .and => 3 | .or => 4 | .xor => 5

/-- The RedOp that a code names; a reserved code names none (R161). -/
def RedOp.ofCode : Nat → Option RedOp
  | 0 => some .add | 1 => some .min | 2 => some .max | 3 => some .and | 4 => some .or | 5 => some .xor | _ => none

/-- The code of each RedType (R161). -/
def RedType.code : RedType → Nat
  | .s32 => 0 | .n32 => 1 | .f32 => 2 | .b32 => 3

/-- The RedType that a code names; a reserved code names none (R161). -/
def RedType.ofCode : Nat → Option RedType
  | 0 => some .s32 | 1 => some .n32 | 2 => some .f32 | 3 => some .b32 | _ => none

/-- The code of each Endpoint (R304, R305). -/
def Endpoint.code : Endpoint → Nat
  | .memory => 0 | .scratch => 1 | .tile => 2

/-- The Endpoint that a code names; a reserved code names none (R304, R305). -/
def Endpoint.ofCode : Nat → Option Endpoint
  | 0 => some .memory | 1 => some .scratch | 2 => some .tile | _ => none

/-- The code of each ActFn (R304). -/
def ActFn.code : ActFn → Nat
  | .none => 0 | .relu => 1 | .gelu => 2 | .silu => 3

/-- The ActFn that a code names; a reserved code names none (R304). -/
def ActFn.ofCode : Nat → Option ActFn
  | 0 => some .none | 1 => some .relu | 2 => some .gelu | 3 => some .silu | _ => none

/-- The code of each CopyMode (R305). -/
def CopyMode.code : CopyMode → Nat
  | .strided => 0 | .gather => 1 | .scatter => 2

/-- The CopyMode that a code names; a reserved code names none (R305). -/
def CopyMode.ofCode : Nat → Option CopyMode
  | 0 => some .strided | 1 => some .gather | 2 => some .scatter | _ => none

/-- The code of each PwrHint (R338). -/
def PwrHint.code : PwrHint → Nat
  | .automatic => 0 | .memoryBound => 1 | .computeBound => 2

/-- The PwrHint that a code names; a reserved code names none (R338). -/
def PwrHint.ofCode : Nat → Option PwrHint
  | 0 => some .automatic | 1 => some .memoryBound | 2 => some .computeBound | _ => none

/-- The type index of CVT (R114). Types that CVT does not name have index 8. -/
def CvtType.index : CvtType → Nat
  | .f32 => 0 | .f16 => 1 | .bf16 => 2 | .e4 => 3 | .e5 => 4 | .s32 => 5 | .n32 => 6 | .s8 => 7
  | .n8 => 8 | .s16 => 8 | .n16 => 8 | .s64 => 8 | .n64 => 8

/-- The type that an index of CVT names (R114). -/
def CvtType.ofIndex : Nat → Option CvtType
  | 0 => some .f32 | 1 => some .f16 | 2 => some .bf16 | 3 => some .e4 | 4 => some .e5 | 5 => some .s32 | 6 => some .n32
  | 7 => some .s8 | _ => none

/-- The opcode map (R65). -/
def Opcode.code : Opcode → Nat
  | .iadd => 0x00 | .iaddi => 0x01 | .isub => 0x02 | .iadd64 => 0x03 | .isub64 => 0x04 | .imul => 0x05
  | .imulhiS32 => 0x06 | .imulhiN32 => 0x07 | .imulwS32 => 0x08 | .imulwN32 => 0x09 | .idivS32 => 0x0A
  | .idivN32 => 0x0B | .iremS32 => 0x0C | .iremN32 => 0x0D | .iminS32 => 0x0E | .iminN32 => 0x0F
  | .imaxS32 => 0x10 | .imaxN32 => 0x11 | .iabs => 0x12 | .iaddsatS32 => 0x13 | .isubsatS32 => 0x14
  | .idot4S8 => 0x15 | .and => 0x18 | .or => 0x19 | .xor => 0x1A | .andn => 0x1B | .andi => 0x1C
  | .ori => 0x1D | .xori => 0x1E | .shl => 0x20 | .shr => 0x21 | .sar => 0x22 | .rotl => 0x23
  | .shli => 0x24 | .shri => 0x25 | .sari => 0x26 | .popc => 0x28 | .clz => 0x29 | .brev => 0x2A
  | .bfxN32 => 0x2B | .bfxS32 => 0x2C | .bfi => 0x2D | .icmp => 0x30 | .pcomb => 0x31 | .pick => 0x32
  | .pread => 0x33 | .pwrite => 0x34 | .mov => 0x38 | .movs => 0x39 | .salu => 0x3A | .salui => 0x3B
  | .srget => 0x3D | .srset => 0x3E | .movi => 0xE0 | .smovi => 0xE1 | .imad => 0xE5 | .fadd => 0x40
  | .fsub => 0x41 | .fmul => 0x42 | .ffma => 0x43 | .ffms => 0x44 | .ffnma => 0x45 | .fmin => 0x46
  | .fmax => 0x47 | .fcmp => 0x48 | .fabs => 0x49 | .fneg => 0x4A | .fclass => 0x4B | .fscale => 0x4C
  | .fround => 0x4D | .faddH2 => 0x50 | .fmulH2 => 0x51 | .ffmaH2 => 0x52 | .fminH2 => 0x53 | .fmaxH2 => 0x54
  | .fcmpH2 => 0x55 | .faddB2 => 0x58 | .fmulB2 => 0x59 | .ffmaB2 => 0x5A | .fminB2 => 0x5B | .fmaxB2 => 0x5C
  | .fcmpB2 => 0x5D | .frcp => 0x60 | .frsq => 0x61 | .fsqrt => 0x62 | .fex2 => 0x63 | .flg2 => 0x64
  | .fsin => 0x65 | .fcos => 0x66 | .ftanh => 0x67 | .cvt => 0x68 | .cvtpk => 0x69 | .fdot2B2 => 0x6B
  | .cvtx => 0xE2 | .ffma4 => 0xE6 | .nop => 0x70 | .bra => 0x71 | .brx => 0x72 | .bru => 0x73
  | .call => 0x74 | .callx => 0x75 | .ret => 0x76 | .spawn => 0x77 | .quit => 0x78 | .yieldTurn => 0x79
  | .trap => 0x7A | .bkpt => 0x7B | .tret => 0x7C | .ldB8 => 0x80 | .ldS8 => 0x81 | .ldB16 => 0x82
  | .ldS16 => 0x83 | .ldB32 => 0x84 | .ldB64 => 0x85 | .ldB128 => 0x86 | .stB8 => 0x88 | .stB16 => 0x89
  | .stB32 => 0x8A | .stB64 => 0x8B | .stB128 => 0x8C | .lds => 0x8D | .sts => 0x8E | .ldc => 0x8F
  | .stc => 0x90 | .ldx => 0xE3 | .stx => 0xE4 | .lea => 0xE7 | .atom => 0x91 | .atomcas => 0x92
  | .red => 0x93 | .fence => 0x94 | .cctl => 0x95 | .icinv => 0x96 | .prefetch => 0x97 | .shflIdx => 0xB0
  | .shflUp => 0xB1 | .shflDown => 0xB2 | .shflXor => 0xB3 | .vote => 0xB4 | .ballot => 0xB5
  | .matchLanes => 0xB6 | .elect => 0xB7 | .redux => 0xB8 | .scan => 0xB9 | .readlane => 0xBA
  | .barArrive => 0xC0 | .barWait => 0xC1 | .barSync => 0xC2 | .barInit => 0xC3 | .barDrop => 0xC4
  | .barTest => 0xC5 | .deqPush => 0xC8 | .deqPop => 0xC9 | .deqSteal => 0xCA | .launch => 0xCB
  | .regGrow => 0xCC | .regShrink => 0xCD | .step => 0xCE | .tcfg => 0xD0 | .tstat => 0xD1 | .tzero => 0xD2
  | .tfree => 0xD3 | .mma => 0xD4 | .epi => 0xD5 | .copy => 0xD6 | .tcvt => 0xD7 | .tmov => 0xD8
  | .namePub => 0xF0 | .nameGet => 0xF1 | .nameRetire => 0xF2 | .nameDrop => 0xF3 | .pwrHint => 0xF8
  | .lanechk => 0xF9

/-- Part 1 of the list of assigned opcodes. -/
def Opcode.all1 : List Opcode :=
  [.iadd, .iaddi, .isub, .iadd64, .isub64, .imul, .imulhiS32, .imulhiN32, .imulwS32, .imulwN32,
   .idivS32, .idivN32, .iremS32, .iremN32, .iminS32, .iminN32, .imaxS32, .imaxN32, .iabs, .iaddsatS32,
   .isubsatS32, .idot4S8, .and, .or, .xor, .andn, .andi, .ori, .xori, .shl,
   .shr, .sar, .rotl, .shli, .shri, .sari, .popc, .clz, .brev, .bfxN32]

/-- Part 2 of the list of assigned opcodes. -/
def Opcode.all2 : List Opcode :=
  [.bfxS32, .bfi, .icmp, .pcomb, .pick, .pread, .pwrite, .mov, .movs, .salu,
   .salui, .srget, .srset, .movi, .smovi, .imad, .fadd, .fsub, .fmul, .ffma,
   .ffms, .ffnma, .fmin, .fmax, .fcmp, .fabs, .fneg, .fclass, .fscale, .fround,
   .faddH2, .fmulH2, .ffmaH2, .fminH2, .fmaxH2, .fcmpH2, .faddB2, .fmulB2, .ffmaB2, .fminB2]

/-- Part 3 of the list of assigned opcodes. -/
def Opcode.all3 : List Opcode :=
  [.fmaxB2, .fcmpB2, .frcp, .frsq, .fsqrt, .fex2, .flg2, .fsin, .fcos, .ftanh,
   .cvt, .cvtpk, .fdot2B2, .cvtx, .ffma4, .nop, .bra, .brx, .bru, .call,
   .callx, .ret, .spawn, .quit, .yieldTurn, .trap, .bkpt, .tret, .ldB8, .ldS8,
   .ldB16, .ldS16, .ldB32, .ldB64, .ldB128, .stB8, .stB16, .stB32, .stB64, .stB128]

/-- Part 4 of the list of assigned opcodes. -/
def Opcode.all4 : List Opcode :=
  [.lds, .sts, .ldc, .stc, .ldx, .stx, .lea, .atom, .atomcas, .red,
   .fence, .cctl, .icinv, .prefetch, .shflIdx, .shflUp, .shflDown, .shflXor, .vote, .ballot,
   .matchLanes, .elect, .redux, .scan, .readlane, .barArrive, .barWait, .barSync, .barInit, .barDrop,
   .barTest, .deqPush, .deqPop, .deqSteal, .launch, .regGrow, .regShrink, .step, .tcfg, .tstat]

/-- Part 5 of the list of assigned opcodes. -/
def Opcode.all5 : List Opcode :=
  [.tzero, .tfree, .mma, .epi, .copy, .tcvt, .tmov, .namePub, .nameGet, .nameRetire,
   .nameDrop, .pwrHint, .lanechk]

/-- Every assigned opcode. -/
def Opcode.all : List Opcode := Opcode.all1 ++ Opcode.all2 ++ Opcode.all3 ++ Opcode.all4 ++ Opcode.all5

/-- The assigned opcode with a given value; R65 leaves the other values unassigned. -/
def Opcode.ofCode (n : Nat) : Option Opcode := Opcode.all.find? (fun o => o.code == n)

/-- The two-word opcodes: those of format F-L (R66). -/
def Opcode.isTwoWord : Opcode → Bool
  | .movi | .smovi | .imad | .cvtx | .ffma4 | .bru | .spawn | .ldx | .stx
  | .lea | .atom | .atomcas | .red | .redux | .scan | .mma | .epi | .copy => true
  | _ => false

/-- The category of an opcode (R66). -/
def Opcode.category (o : Opcode) : Category :=
  let c := o.code
  if c = 0xE3 ∨ c = 0xE4 ∨ (0x80 ≤ c ∧ c ≤ 0x97) ∨ c = 0xCB then .mem
  else if (0x70 ≤ c ∧ c ≤ 0x7C) ∨ (0xC0 ≤ c ∧ c ≤ 0xCA) ∨ (0xCC ≤ c ∧ c ≤ 0xCE) ∨ c = 0xF8 ∨ c = 0xF9 then .ctl
  else if (0xD0 ≤ c ∧ c ≤ 0xD8) ∨ (0xF0 ≤ c ∧ c ≤ 0xF3) then .tile
  else .alu

/-- A register field that names a 64-bit operand is even (R31, R61). -/
def isPair (r : Reg) : Bool := r.val % 2 == 0

/-- A register field that names a 128-bit operand is a multiple of 4 (R31). -/
def isQuad (r : Reg) : Bool := r.val % 4 == 0

/-- R31 for the data register of a memory access of a given size. -/
def MemSize.aligned (z : MemSize) (r : Reg) : Bool :=
  match z with
  | .b64 => isPair r
  | .b128 => isQuad r
  | _ => true

/-- The access size of a size code in bytes (R130, R131). -/
def MemSize.bytes : MemSize → Nat
  | .b8 | .s8 => 1
  | .b16 | .s16 => 2
  | .b32 => 4
  | .b64 => 8
  | .b128 => 16

/-- A 64-bit type of ATOM and RED (R254). -/
def AtomType.is64 : AtomType → Bool
  | .s64 | .n64 | .b64 => true
  | _ => false

/-- The pairings of operation and type that R254 allows. -/
def AtomOp.allows : AtomOp → AtomType → Bool
  | .add, .s32 | .add, .n32 | .add, .n64 | .add, .f32 | .add, .h2 | .add, .b2 => true
  | .min, t | .max, t => !(t == .b32 || t == .b64)
  | .and, t | .or, t | .xor, t | .exch, t => t == .b32 || t == .b64
  | .inc, t | .dec, t => t == .n32
  | _, _ => false

/-- The checks of R253 and R254 that ATOM, RED and ATOMCAS share: sbase, scope and the 64-bit types. -/
def AtomAddr.ok (m : AtomAddr) (is64 : Bool) : Bool :=
  if m.sp then m.scope == .warp && !is64 else isPair m.sbase

/-- The number of barriers of a scope (R164); scope 0 names none (R165). -/
def Scope.barriers : Scope → Nat
  | .warp => 0 | .core => 16 | .quad => 8 | .cluster => 8 | .die => 8 | .package => 4 | .domain => 4

/-- R165: the index of a barrier operand is below the count of its scope. -/
def BarOp.ok (o : BarOp) : Bool := o.index.val < o.scope.barriers

/-- R161: which operation, type and rounding code go together in REDUX and SCAN. -/
def redOk (op : RedOp) (ty : RedType) (mode : RMode) : Bool :=
  (match op with
   | .and | .or | .xor => ty == .b32
   | .add | .min | .max => !(ty == .b32)) &&
  (mode == .rne || (op == .add && ty == .f32 && !(mode == .rsr)))

/-- R92: the pair fields and unused fields of a sub-operation; `b` is the value of field [11:6]. -/
def SaluOp.fieldsOk (op : SaluOp) (imm : Bool) (d a : Reg) (b : Nat) : Bool :=
  match op with
  | .mov => a.val == 0
  | .popc | .clz => b == 0
  | .add64 => isPair d && isPair a
  | .addp64 | .subp64 => !imm && isPair d && isPair a && b % 2 == 0
  | _ => true

/-- R94: SRSET to a register whose access is ro takes RESERVED_FIELD (R93). -/
def SpecReg.writable : SpecReg → Bool
  | .srgen | .trcause | .trinfo0 | .trinfo1 | .trpc | .trhdr | .trsave0 | .trsave1 => true
  | _ => false

/-- The 64-bit types of CVTX (R116). -/
def CvtType.is64 : CvtType → Bool
  | .s64 | .n64 => true
  | _ => false

/-- The checks of one instruction's fields: what takes RESERVED_FIELD beyond a reserved bit or a reserved code (R64).
An unassigned word is well formed as such when its opcode is unassigned (R65). -/
def fieldsOk : Instr → Bool
  | .iadd64 f | .isub64 f => isPair f.d && isPair f.a && isPair f.b
  | .imulwS32 f | .imulwN32 f => isPair f.d
  | .imad f c _ var => (match var with
    | .wideS | .wideN => isPair f.d && isPair c
    | .plain | .sat => true)
  | .salu op d a b => op.fieldsOk false d a b.val
  | .salui op d a imm => op.fieldsOk true d a imm.toNat
  | .srset _ _ n => n.writable
  | .fcmpH2 f | .fcmpB2 f => !(f.pd.val == 6)
  | .cvt _ _ _ _ dst src => dst.index < 8 && src.index < 8 && !(dst == src)
  | .cvtpk _ _ a _ _ => isPair a
  | .cvtx _ d a _ dst src mode sat useSlot slot =>
    (!dst.is64 || isPair d) && (!src.is64 || isPair a) &&
    (if useSlot then mode == .rne && !sat else slot.val == 0)
  | .call _ fc _ => !(fc.val == 0)
  | .callx _ fc _ _ => !(fc.val == 0)
  | .spawn _ _ wo _ => wo.val < 32
  | .ldB8 f | .ldS8 f | .ldB16 f | .ldS16 f | .ldB32 f | .stB8 f | .stB16 f | .stB32 f => isPair f.sbase
  | .ldB64 f | .stB64 f => isPair f.sbase && isPair f.r
  | .ldB128 f | .stB128 f => isPair f.sbase && isQuad f.r
  | .ldx f _ size _ _ => isPair f.sbase && size.aligned f.r
  | .stx f _ size _ _ => isPair f.sbase && size.aligned f.r && !(size == .s8) && !(size == .s16)
  | .lea f _ _ => isPair f.sbase && isPair f.r
  | .atom _ d m b _ op ty => m.ok ty.is64 && op.allows ty && (!ty.is64 || (isPair d && isPair b))
  | .atomcas _ d m b _ c _ ty _ =>
    m.ok (ty == .b64) && (!(ty == .b64) || (isPair d && isPair b && isPair c))
  | .red _ m b _ op ty => m.ok ty.is64 && op.allows ty && !(op == .exch) && (!ty.is64 || isPair b)
  | .cctl _ _ _ sbase _ _ | .prefetch _ _ _ sbase _ _ => isPair sbase
  | .icinv _ scope _ sbase _ _ => isPair sbase && !(scope == .warp) && !(scope == .domain)
  | .ballot _ d _ => isPair d
  | .matchLanes f => isPair f.d
  | .redux _ op ty mode | .scan _ op ty mode _ => redOk op ty mode
  | .barArrive _ o | .barWait _ o | .barSync _ o | .barInit _ _ o | .barDrop _ o | .barTest _ _ o => o.ok
  | .deqPush _ _ a _ => isPair a
  | .deqPop _ d _ | .deqSteal _ d _ => isPair d
  | .launch _ _ _ sb _ _ => isPair sb
  | .regGrow _ n | .regShrink _ n => 8 ≤ n.toNat && n.toNat ≤ 32
  | .epi _ _ t dst _ fslot _ _ _ _ pol =>
    (dst == .tile || t.val == 0) && (!(dst == .tile) || fslot.val == 0) && (dst == .memory || pol == .normal)
  | .copy _ _ t src dst _ esz _ =>
    !(src == .tile && dst == .tile) && (src == .tile || dst == .tile || t.val == 0) && esz.val < 5
  | .tcvt _ m mode ta t => (m || mode == .rne) && !(ta == t)
  | .namePub _ _ sb _ | .nameGet _ _ sb _ | .nameRetire _ sb _ => isQuad sb
  | .lanechk _ d _ => isPair d
  | .unassignedOpcodeIssue w => (Opcode.ofCode (w.toNat / 16777216)).isNone
  | _ => true

end Sys2Proof
end

