-- ==== Sys2Proof/WellFormed.lean ====
section
/-! DEFINITION. Well-formed instructions: those whose fields pass every check that decoding makes (R64, step 2). -/

namespace Sys2Proof

/-- An instruction whose fields hold no reserved value and break no alignment of R31 or R61. -/
def WellFormed (i : Instr) : Prop := fieldsOk i = true

end Sys2Proof
end

