-- ==== Sys2Proof/Decode.lean ====
section
/-! DEFINITION. The decoder of instruction words, total and rejecting by name, and the encoder of well-formed instructions,
both written from the layouts of R57 to R61 and of the instruction chapters. -/

namespace Sys2Proof

/-- Bits [lo + n - 1 : lo] of a word. -/
def bits (w lo n : Nat) : Nat := w / 2 ^ lo % 2 ^ n
/-- A 6-bit register field at bit lo (R58). -/
def reg (w lo : Nat) : Reg := Fin.ofNat 64 (w / 2 ^ lo)
/-- A 3-bit predicate field at bit lo. -/
def p3 (w lo : Nat) : Pred := Fin.ofNat 8 (w / 2 ^ lo)
/-- A 4-bit tile field at bit lo. -/
def tile4 (w lo : Nat) : TileReg := Fin.ofNat 16 (w / 2 ^ lo)
/-- A 3-bit number at bit lo. -/
def fin8 (w lo : Nat) : Fin 8 := Fin.ofNat 8 (w / 2 ^ lo)
/-- A 6-bit number at bit lo. -/
def fin64 (w lo : Nat) : Fin 64 := Fin.ofNat 64 (w / 2 ^ lo)
/-- A 1-bit field. -/
def flag (w lo : Nat) : Bool := w / 2 ^ lo % 2 == 1
/-- A field of n raw bits at bit lo. -/
def bv (n w lo : Nat) : BitVec n := BitVec.ofNat n (w / 2 ^ lo)

/-- The guard at [23:20] (R57). -/
def guard (w : Nat) : Guard := ⟨flag w 23, p3 w 20⟩
/-- Format F-A (R58). -/
def fmtA (w : Nat) : FmtA := ⟨guard w, reg w 14, reg w 8, reg w 2, flag w 1, flag w 0⟩
/-- Format F-A without vb and fb (R59). -/
def fmtU (w : Nat) : FmtU := ⟨guard w, reg w 14, reg w 8, flag w 1⟩
/-- Format F-B (R58). -/
def fmtB (w : Nat) : FmtB := ⟨guard w, reg w 14, reg w 8, bv 8 w 0⟩
/-- Format F-M (R58). -/
def fmtM (w : Nat) : FmtM := ⟨guard w, reg w 14, reg w 8, reg w 2, flag w 1, flag w 0⟩
/-- Format F-P with an integer compare code (R62). -/
def fmtPI (w : Nat) : Option FmtPI :=
  (IntCmp.ofCode (bits w 14 3)).map fun cc => ⟨guard w, p3 w 17, cc, reg w 8, reg w 2, flag w 1, flag w 0⟩
/-- Format F-P with a floating compare code (R62). -/
def fmtPF (w : Nat) : Option FmtPF :=
  (FltCmp.ofCode (bits w 14 3)).map fun cc => ⟨guard w, p3 w 17, cc, reg w 8, reg w 2, flag w 1, flag w 0⟩
/-- The barrier operand at [7:0] (R165). -/
def barOp (w : Nat) : Option BarOp := (Scope.ofCode (bits w 5 3)).map fun s => ⟨s, tile4 w 0⟩
/-- The memory operand of ATOM, RED and ATOMCAS (R253). -/
def atomAddr (w v : Nat) : Option AtomAddr :=
  (Scope.ofCode (bits v 13 3)).map fun s => ⟨reg w 8, reg w 2, flag w 1, flag w 0, s, flag v 12⟩

/-- What a word that is no instruction is rejected for. -/
inductive Reject where
  /-- A reserved field is non-zero, a field holds a reserved value, or a register field breaks its alignment (R64). -/
  | reservedField
  /-- Fewer bytes than the instruction has. -/
  | truncated
  deriving DecidableEq, Repr

/-- The fields of the words `w` and `v` under an opcode, before the checks on reserved bits; none where a coded field
holds a reserved code. -/
def extract (o : Opcode) (w v : Nat) : Option Instr :=
  match o with
  | .iadd => some (.iadd (fmtA w))
  | .iaddi => some (.iaddi (fmtB w))
  | .isub => some (.isub (fmtA w))
  | .iadd64 => some (.iadd64 (fmtA w))
  | .isub64 => some (.isub64 (fmtA w))
  | .imul => some (.imul (fmtA w))
  | .imulhiS32 => some (.imulhiS32 (fmtA w))
  | .imulhiN32 => some (.imulhiN32 (fmtA w))
  | .imulwS32 => some (.imulwS32 (fmtA w))
  | .imulwN32 => some (.imulwN32 (fmtA w))
  | .idivS32 => some (.idivS32 (fmtA w))
  | .idivN32 => some (.idivN32 (fmtA w))
  | .iremS32 => some (.iremS32 (fmtA w))
  | .iremN32 => some (.iremN32 (fmtA w))
  | .iminS32 => some (.iminS32 (fmtA w))
  | .iminN32 => some (.iminN32 (fmtA w))
  | .imaxS32 => some (.imaxS32 (fmtA w))
  | .imaxN32 => some (.imaxN32 (fmtA w))
  | .iabs => some (.iabs (fmtU w))
  | .iaddsatS32 => some (.iaddsatS32 (fmtA w))
  | .isubsatS32 => some (.isubsatS32 (fmtA w))
  | .idot4S8 => some (.idot4S8 (fmtA w))
  | .and => some (.and (fmtA w))
  | .or => some (.or (fmtA w))
  | .xor => some (.xor (fmtA w))
  | .andn => some (.andn (fmtA w))
  | .andi => some (.andi (fmtB w))
  | .ori => some (.ori (fmtB w))
  | .xori => some (.xori (fmtB w))
  | .shl => some (.shl (fmtA w))
  | .shr => some (.shr (fmtA w))
  | .sar => some (.sar (fmtA w))
  | .rotl => some (.rotl (fmtA w))
  | .shli => some (.shli (fmtB w))
  | .shri => some (.shri (fmtB w))
  | .sari => some (.sari (fmtB w))
  | .popc => some (.popc (fmtU w))
  | .clz => some (.clz (fmtU w))
  | .brev => some (.brev (fmtU w))
  | .bfxN32 => some (.bfxN32 (fmtA w))
  | .bfxS32 => some (.bfxS32 (fmtA w))
  | .bfi => some (.bfi (fmtA w))
  | .icmp => do
    let f ← fmtPI w
    return .icmp f
  | .pcomb => some (.pcomb (guard w) (p3 w 17) (p3 w 14) (p3 w 11) (bv 8 w 0))
  | .pick => some (.pick (fmtA w))
  | .pread => some (.pread (guard w) (reg w 14))
  | .pwrite => some (.pwrite (guard w) (reg w 8) (reg w 2) (flag w 1) (flag w 0))
  | .mov => some (.mov (fmtU w))
  | .movs => some (.movs (guard w) (reg w 14) (reg w 2) (flag w 0))
  | .salu => do
    let op ← SaluOp.ofCode (bits w 0 6)
    return .salu op (reg w 18) (reg w 12) (reg w 6)
  | .salui => do
    let op ← SaluOp.ofCode (bits w 0 6)
    return .salui op (reg w 18) (reg w 12) (bv 6 w 6)
  | .srget => do
    let n ← SpecReg.ofCode (bits w 0 8)
    return .srget (guard w) (reg w 14) n
  | .srset => do
    let n ← SpecReg.ofCode (bits w 0 8)
    return .srset (guard w) (reg w 8) n
  | .movi => some (.movi (guard w) (reg w 14) (bv 32 v 0))
  | .smovi => some (.smovi (guard w) (reg w 14) (bv 32 v 0))
  | .imad => do
    let var ← ImadVar.ofCode (bits v 22 3)
    return .imad (fmtA w) (reg v 26) (flag v 25) var
  | .fadd => some (.fadd (fmtA w))
  | .fsub => some (.fsub (fmtA w))
  | .fmul => some (.fmul (fmtA w))
  | .ffma => some (.ffma (fmtA w))
  | .ffms => some (.ffms (fmtA w))
  | .ffnma => some (.ffnma (fmtA w))
  | .fmin => some (.fmin (fmtA w))
  | .fmax => some (.fmax (fmtA w))
  | .fcmp => do
    let f ← fmtPF w
    return .fcmp f
  | .fabs => some (.fabs (fmtU w))
  | .fneg => some (.fneg (fmtU w))
  | .fclass => some (.fclass (fmtU w))
  | .fscale => some (.fscale (fmtA w))
  | .fround => do
    let mode ← RMode.ofCode (bits w 2 3)
    return .fround (guard w) (reg w 14) (reg w 8) (flag w 1) mode
  | .faddH2 => some (.faddH2 (fmtA w))
  | .fmulH2 => some (.fmulH2 (fmtA w))
  | .ffmaH2 => some (.ffmaH2 (fmtA w))
  | .fminH2 => some (.fminH2 (fmtA w))
  | .fmaxH2 => some (.fmaxH2 (fmtA w))
  | .fcmpH2 => do
    let f ← fmtPF w
    return .fcmpH2 f
  | .faddB2 => some (.faddB2 (fmtA w))
  | .fmulB2 => some (.fmulB2 (fmtA w))
  | .ffmaB2 => some (.ffmaB2 (fmtA w))
  | .fminB2 => some (.fminB2 (fmtA w))
  | .fmaxB2 => some (.fmaxB2 (fmtA w))
  | .fcmpB2 => do
    let f ← fmtPF w
    return .fcmpB2 f
  | .frcp => some (.frcp (fmtU w))
  | .frsq => some (.frsq (fmtU w))
  | .fsqrt => some (.fsqrt (fmtU w))
  | .fex2 => some (.fex2 (fmtU w))
  | .flg2 => some (.flg2 (fmtU w))
  | .fsin => some (.fsin (fmtU w))
  | .fcos => some (.fcos (fmtU w))
  | .ftanh => some (.ftanh (fmtU w))
  | .cvt => do
    let dst ← CvtType.ofIndex (bits w 5 3)
    let src ← CvtType.ofIndex (bits w 2 3)
    return .cvt (guard w) (reg w 14) (reg w 8) (flag w 1) dst src
  | .cvtpk => do
    let sel ← PackSel.ofCode (bits w 2 6)
    return .cvtpk (guard w) (reg w 14) (reg w 8) (flag w 1) sel
  | .fdot2B2 => some (.fdot2B2 (fmtA w))
  | .cvtx => do
    let dst ← CvtType.ofCode (bits v 28 4)
    let src ← CvtType.ofCode (bits v 24 4)
    let mode ← RMode.ofCode (bits v 21 3)
    return .cvtx (guard w) (reg w 14) (reg w 8) (flag w 1) dst src mode (flag v 20) (flag v 19) (fin8 v 16)
  | .ffma4 => do
    let mode ← RMode.ofCode (bits v 22 3)
    let ty ← Ffma4Type.ofCode (bits v 20 2)
    return .ffma4 (fmtA w) (reg v 26) (flag v 25) mode ty (flag v 19) (flag v 18)
  | .nop => some (.nop (guard w))
  | .bra => some (.bra (guard w) (bv 20 w 0))
  | .brx => some (.brx (guard w) (reg w 8) (flag w 1))
  | .bru => some (.bru (guard w) (reg w 14) (flag w 13) (flag w 12) (bv 32 v 0))
  | .call => some (.call (guard w) (fin8 w 17) (bv 17 w 0))
  | .callx => some (.callx (guard w) (fin8 w 17) (reg w 8) (flag w 1))
  | .ret => some (.ret (guard w))
  | .spawn => some (.spawn (guard w) (reg w 14) (fin64 w 8) (bv 32 v 0))
  | .quit => some (.quit (guard w))
  | .yieldTurn => some (.yieldTurn (guard w))
  | .trap => some (.trap (guard w) (bv 8 w 0))
  | .bkpt => some (.bkpt (guard w) (bv 8 w 0))
  | .tret => some (.tret (guard w))
  | .ldB8 => some (.ldB8 (fmtM w))
  | .ldS8 => some (.ldS8 (fmtM w))
  | .ldB16 => some (.ldB16 (fmtM w))
  | .ldS16 => some (.ldS16 (fmtM w))
  | .ldB32 => some (.ldB32 (fmtM w))
  | .ldB64 => some (.ldB64 (fmtM w))
  | .ldB128 => some (.ldB128 (fmtM w))
  | .stB8 => some (.stB8 (fmtM w))
  | .stB16 => some (.stB16 (fmtM w))
  | .stB32 => some (.stB32 (fmtM w))
  | .stB64 => some (.stB64 (fmtM w))
  | .stB128 => some (.stB128 (fmtM w))
  | .lds => some (.lds (fmtM w))
  | .sts => some (.sts (fmtM w))
  | .ldc => some (.ldc (fmtM w))
  | .stc => some (.stc (fmtM w))
  | .ldx => do
    let size ← MemSize.ofCode (bits v 5 3)
    let pol ← Policy.ofCode (bits v 3 2)
    let scope ← Scope.ofCode (bits v 0 3)
    return .ldx (fmtM w) (bv 24 v 8) size pol scope
  | .stx => do
    let size ← MemSize.ofCode (bits v 5 3)
    let pol ← Policy.ofCode (bits v 3 2)
    let scope ← Scope.ofCode (bits v 0 3)
    return .stx (fmtM w) (bv 24 v 8) size pol scope
  | .lea => do
    let size ← MemSize.ofCode (bits v 5 3)
    return .lea (fmtM w) (bv 24 v 8) size
  | .atom => do
    let m ← atomAddr w v
    let op ← AtomOp.ofCode (bits v 20 5)
    let ty ← AtomType.ofCode (bits v 16 4)
    return .atom (guard w) (reg w 14) m (reg v 26) (flag v 25) op ty
  | .atomcas => do
    let m ← atomAddr w v
    let ty ← CasType.ofCode (bits v 16 2)
    return .atomcas (guard w) (reg w 14) m (reg v 26) (flag v 25) (reg v 19) (flag v 18) ty (p3 v 9)
  | .red => do
    let m ← atomAddr w v
    let op ← AtomOp.ofCode (bits v 20 5)
    let ty ← AtomType.ofCode (bits v 16 4)
    return .red (guard w) m (reg v 26) (flag v 25) op ty
  | .fence => do
    let scope ← Scope.ofCode (bits w 0 3)
    return .fence (guard w) scope
  | .cctl => do
    let op ← CctlOp.ofCode (bits w 14 6)
    return .cctl (guard w) op (reg w 8) (reg w 2) (flag w 1) (flag w 0)
  | .icinv => do
    let scope ← Scope.ofCode (bits w 14 3)
    return .icinv (guard w) scope (reg w 8) (reg w 2) (flag w 1) (flag w 0)
  | .prefetch => some (.prefetch (guard w) (flag w 18) (reg w 8) (reg w 2) (flag w 1) (flag w 0))
  | .shflIdx => some (.shflIdx (fmtA w))
  | .shflUp => some (.shflUp (fmtA w))
  | .shflDown => some (.shflDown (fmtA w))
  | .shflXor => some (.shflXor (fmtA w))
  | .vote => do
    let mode ← VoteMode.ofCode (bits w 14 3)
    return .vote (guard w) (p3 w 17) mode (p3 w 11)
  | .ballot => some (.ballot (guard w) (reg w 14) (p3 w 11))
  | .matchLanes => some (.matchLanes (fmtU w))
  | .elect => some (.elect (guard w) (p3 w 17) (reg w 8))
  | .redux => do
    let op ← RedOp.ofCode (bits v 28 4)
    let ty ← RedType.ofCode (bits v 24 4)
    let mode ← RMode.ofCode (bits v 21 3)
    return .redux (fmtU w) op ty mode
  | .scan => do
    let op ← RedOp.ofCode (bits v 28 4)
    let ty ← RedType.ofCode (bits v 24 4)
    let mode ← RMode.ofCode (bits v 21 3)
    return .scan (fmtU w) op ty mode (flag v 20)
  | .readlane => some (.readlane (guard w) (reg w 14) (reg w 8) (reg w 2) (flag w 1) (flag w 0))
  | .barArrive => do
    let o ← barOp w
    return .barArrive (guard w) o
  | .barWait => do
    let o ← barOp w
    return .barWait (guard w) o
  | .barSync => do
    let o ← barOp w
    return .barSync (guard w) o
  | .barInit => do
    let o ← barOp w
    return .barInit (guard w) (reg w 8) o
  | .barDrop => do
    let o ← barOp w
    return .barDrop (guard w) o
  | .barTest => do
    let o ← barOp w
    return .barTest (guard w) (p3 w 17) o
  | .deqPush => some (.deqPush (guard w) (reg w 14) (reg w 8) (flag w 1))
  | .deqPop => some (.deqPop (guard w) (reg w 14) (reg w 2))
  | .deqSteal => some (.deqSteal (guard w) (reg w 14) (reg w 2))
  | .launch => some (.launch (guard w) (reg w 14) (reg w 8) (reg w 2) (flag w 1) (flag w 0))
  | .regGrow => some (.regGrow (guard w) (bv 8 w 0))
  | .regShrink => some (.regShrink (guard w) (bv 8 w 0))
  | .step => some (.step (guard w) (reg w 14) (reg w 2) (flag w 0))
  | .tcfg => some (.tcfg (guard w) (tile4 w 14) (reg w 2) (flag w 0))
  | .tstat => some (.tstat (guard w) (reg w 14) (tile4 w 8))
  | .tzero => some (.tzero (guard w) (tile4 w 0))
  | .tfree => some (.tfree (guard w) (tile4 w 0))
  | .mma => some (.mma (guard w) (reg w 14) (tile4 w 10) (tile4 w 6) (fin8 v 29) (flag v 28) (flag v 27) (flag v 26))
  | .epi => do
    let dst ← Endpoint.ofCode (bits v 30 2)
    let act ← ActFn.ofCode (bits v 28 2)
    let pol ← Policy.ofCode (bits v 19 2)
    return .epi (guard w) (reg w 14) (tile4 w 10) dst act (fin8 v 25) (flag v 24) (flag v 23) (flag v 22) (flag v 21) pol
  | .copy => do
    let src ← Endpoint.ofCode (bits v 30 2)
    let dst ← Endpoint.ofCode (bits v 28 2)
    let mode ← CopyMode.ofCode (bits v 26 2)
    let pol ← Policy.ofCode (bits v 21 2)
    return .copy (guard w) (reg w 14) (tile4 w 10) src dst mode (fin8 v 23) pol
  | .tcvt => do
    let mode ← RMode.ofCode (bits w 14 3)
    return .tcvt (guard w) (flag w 17) mode (tile4 w 4) (tile4 w 0)
  | .namePub => some (.namePub (guard w) (tile4 w 14) (reg w 2) (flag w 0))
  | .nameGet => some (.nameGet (guard w) (tile4 w 14) (reg w 2) (flag w 0))
  | .nameRetire => some (.nameRetire (guard w) (reg w 2) (flag w 0))
  | .nameDrop => some (.nameDrop (guard w) (tile4 w 14))
  | .pwrHint => do
    let h ← PwrHint.ofCode (bits w 0 2)
    return .pwrHint (guard w) h
  | .lanechk => some (.lanechk (guard w) (reg w 14) (bv 4 w 0))
  | .tmov => if flag w 13 then some (.tmovSet (guard w) (reg w 14) (tile4 w 8) (reg w 2) (flag w 1) (flag w 0))
    else some (.tmovGet (guard w) (reg w 14) (tile4 w 8) (reg w 2) (flag w 0))

/-- The guard in its place (R57). -/
def encGuard (g : Guard) : Nat := g.sense.toNat * 8388608 + g.pred.val * 1048576
/-- Format F-A in its place. -/
def encA (f : FmtA) : Nat := encGuard f.g + f.d.val * 16384 + f.a.val * 256 + f.b.val * 4 + f.fa.toNat * 2 + f.fb.toNat
/-- Format F-A without vb and fb in its place. -/
def encU (f : FmtU) : Nat := encGuard f.g + f.d.val * 16384 + f.a.val * 256 + f.fa.toNat * 2
/-- Format F-B in its place. -/
def encB (f : FmtB) : Nat := encGuard f.g + f.d.val * 16384 + f.a.val * 256 + f.imm.toNat
/-- Format F-M in its place. -/
def encM (f : FmtM) : Nat :=
  encGuard f.g + f.r.val * 16384 + f.vo.val * 256 + f.sbase.val * 4 + f.fa.toNat * 2 + f.scale.toNat
/-- Format F-P with an integer compare in its place. -/
def encPI (f : FmtPI) : Nat :=
  encGuard f.g + f.pd.val * 131072 + f.cc.code * 16384 + f.a.val * 256 + f.b.val * 4 + f.fa.toNat * 2 + f.fb.toNat
/-- Format F-P with a floating compare in its place. -/
def encPF (f : FmtPF) : Nat :=
  encGuard f.g + f.pd.val * 131072 + f.cc.code * 16384 + f.a.val * 256 + f.b.val * 4 + f.fa.toNat * 2 + f.fb.toNat
/-- The barrier operand in its place (R165). -/
def encBar (o : BarOp) : Nat := o.scope.code * 32 + o.index.val
/-- The part of an atomic's memory operand in word 0 (R253). -/
def encAtom0 (m : AtomAddr) : Nat := m.vo.val * 256 + m.sbase.val * 4 + m.fa.toNat * 2 + m.scale.toNat
/-- The part of an atomic's memory operand in word 1 (R253). -/
def encAtom1 (m : AtomAddr) : Nat := m.scope.code * 8192 + m.sp.toNat * 4096

/-- Word 0 of an instruction. The steps of the other agents have no words. -/
def encode0 : Instr → Nat
  | .iadd f => Opcode.iadd.code * 16777216 + encA f
  | .iaddi f => Opcode.iaddi.code * 16777216 + encB f
  | .isub f => Opcode.isub.code * 16777216 + encA f
  | .iadd64 f => Opcode.iadd64.code * 16777216 + encA f
  | .isub64 f => Opcode.isub64.code * 16777216 + encA f
  | .imul f => Opcode.imul.code * 16777216 + encA f
  | .imulhiS32 f => Opcode.imulhiS32.code * 16777216 + encA f
  | .imulhiN32 f => Opcode.imulhiN32.code * 16777216 + encA f
  | .imulwS32 f => Opcode.imulwS32.code * 16777216 + encA f
  | .imulwN32 f => Opcode.imulwN32.code * 16777216 + encA f
  | .idivS32 f => Opcode.idivS32.code * 16777216 + encA f
  | .idivN32 f => Opcode.idivN32.code * 16777216 + encA f
  | .iremS32 f => Opcode.iremS32.code * 16777216 + encA f
  | .iremN32 f => Opcode.iremN32.code * 16777216 + encA f
  | .iminS32 f => Opcode.iminS32.code * 16777216 + encA f
  | .iminN32 f => Opcode.iminN32.code * 16777216 + encA f
  | .imaxS32 f => Opcode.imaxS32.code * 16777216 + encA f
  | .imaxN32 f => Opcode.imaxN32.code * 16777216 + encA f
  | .iabs f => Opcode.iabs.code * 16777216 + encU f
  | .iaddsatS32 f => Opcode.iaddsatS32.code * 16777216 + encA f
  | .isubsatS32 f => Opcode.isubsatS32.code * 16777216 + encA f
  | .idot4S8 f => Opcode.idot4S8.code * 16777216 + encA f
  | .and f => Opcode.and.code * 16777216 + encA f
  | .or f => Opcode.or.code * 16777216 + encA f
  | .xor f => Opcode.xor.code * 16777216 + encA f
  | .andn f => Opcode.andn.code * 16777216 + encA f
  | .andi f => Opcode.andi.code * 16777216 + encB f
  | .ori f => Opcode.ori.code * 16777216 + encB f
  | .xori f => Opcode.xori.code * 16777216 + encB f
  | .shl f => Opcode.shl.code * 16777216 + encA f
  | .shr f => Opcode.shr.code * 16777216 + encA f
  | .sar f => Opcode.sar.code * 16777216 + encA f
  | .rotl f => Opcode.rotl.code * 16777216 + encA f
  | .shli f => Opcode.shli.code * 16777216 + encB f
  | .shri f => Opcode.shri.code * 16777216 + encB f
  | .sari f => Opcode.sari.code * 16777216 + encB f
  | .popc f => Opcode.popc.code * 16777216 + encU f
  | .clz f => Opcode.clz.code * 16777216 + encU f
  | .brev f => Opcode.brev.code * 16777216 + encU f
  | .bfxN32 f => Opcode.bfxN32.code * 16777216 + encA f
  | .bfxS32 f => Opcode.bfxS32.code * 16777216 + encA f
  | .bfi f => Opcode.bfi.code * 16777216 + encA f
  | .icmp f => Opcode.icmp.code * 16777216 + encPI f
  | .pcomb g pd pa pb table => Opcode.pcomb.code * 16777216 + encGuard g + pd.val * 131072 + pa.val * 16384 + pb.val * 2048 + table.toNat
  | .pick f => Opcode.pick.code * 16777216 + encA f
  | .pread g d => Opcode.pread.code * 16777216 + encGuard g + d.val * 16384
  | .pwrite g a b fa fb => Opcode.pwrite.code * 16777216 + encGuard g + a.val * 256 + b.val * 4 + fa.toNat * 2 + fb.toNat
  | .mov f => Opcode.mov.code * 16777216 + encU f
  | .movs g d sb fb => Opcode.movs.code * 16777216 + encGuard g + d.val * 16384 + sb.val * 4 + fb.toNat
  | .salu op d a b => Opcode.salu.code * 16777216 + op.code + d.val * 262144 + a.val * 4096 + b.val * 64
  | .salui op d a imm => Opcode.salui.code * 16777216 + op.code + d.val * 262144 + a.val * 4096 + imm.toNat * 64
  | .srget g d n => Opcode.srget.code * 16777216 + encGuard g + d.val * 16384 + n.code
  | .srset g a n => Opcode.srset.code * 16777216 + encGuard g + a.val * 256 + n.code
  | .movi g d _ => Opcode.movi.code * 16777216 + encGuard g + d.val * 16384
  | .smovi g d _ => Opcode.smovi.code * 16777216 + encGuard g + d.val * 16384
  | .imad f _ _ _ => Opcode.imad.code * 16777216 + encA f
  | .fadd f => Opcode.fadd.code * 16777216 + encA f
  | .fsub f => Opcode.fsub.code * 16777216 + encA f
  | .fmul f => Opcode.fmul.code * 16777216 + encA f
  | .ffma f => Opcode.ffma.code * 16777216 + encA f
  | .ffms f => Opcode.ffms.code * 16777216 + encA f
  | .ffnma f => Opcode.ffnma.code * 16777216 + encA f
  | .fmin f => Opcode.fmin.code * 16777216 + encA f
  | .fmax f => Opcode.fmax.code * 16777216 + encA f
  | .fcmp f => Opcode.fcmp.code * 16777216 + encPF f
  | .fabs f => Opcode.fabs.code * 16777216 + encU f
  | .fneg f => Opcode.fneg.code * 16777216 + encU f
  | .fclass f => Opcode.fclass.code * 16777216 + encU f
  | .fscale f => Opcode.fscale.code * 16777216 + encA f
  | .fround g d a fa mode => Opcode.fround.code * 16777216 + encGuard g + d.val * 16384 + a.val * 256 + fa.toNat * 2 + mode.code * 4
  | .faddH2 f => Opcode.faddH2.code * 16777216 + encA f
  | .fmulH2 f => Opcode.fmulH2.code * 16777216 + encA f
  | .ffmaH2 f => Opcode.ffmaH2.code * 16777216 + encA f
  | .fminH2 f => Opcode.fminH2.code * 16777216 + encA f
  | .fmaxH2 f => Opcode.fmaxH2.code * 16777216 + encA f
  | .fcmpH2 f => Opcode.fcmpH2.code * 16777216 + encPF f
  | .faddB2 f => Opcode.faddB2.code * 16777216 + encA f
  | .fmulB2 f => Opcode.fmulB2.code * 16777216 + encA f
  | .ffmaB2 f => Opcode.ffmaB2.code * 16777216 + encA f
  | .fminB2 f => Opcode.fminB2.code * 16777216 + encA f
  | .fmaxB2 f => Opcode.fmaxB2.code * 16777216 + encA f
  | .fcmpB2 f => Opcode.fcmpB2.code * 16777216 + encPF f
  | .frcp f => Opcode.frcp.code * 16777216 + encU f
  | .frsq f => Opcode.frsq.code * 16777216 + encU f
  | .fsqrt f => Opcode.fsqrt.code * 16777216 + encU f
  | .fex2 f => Opcode.fex2.code * 16777216 + encU f
  | .flg2 f => Opcode.flg2.code * 16777216 + encU f
  | .fsin f => Opcode.fsin.code * 16777216 + encU f
  | .fcos f => Opcode.fcos.code * 16777216 + encU f
  | .ftanh f => Opcode.ftanh.code * 16777216 + encU f
  | .cvt g d a fa dst src => Opcode.cvt.code * 16777216 + encGuard g + d.val * 16384 + a.val * 256 + fa.toNat * 2 + dst.index * 32 + src.index * 4
  | .cvtpk g d a fa sel => Opcode.cvtpk.code * 16777216 + encGuard g + d.val * 16384 + a.val * 256 + fa.toNat * 2 + sel.code * 4
  | .fdot2B2 f => Opcode.fdot2B2.code * 16777216 + encA f
  | .cvtx g d a fa _ _ _ _ _ _ => Opcode.cvtx.code * 16777216 + encGuard g + d.val * 16384 + a.val * 256 + fa.toNat * 2
  | .ffma4 f _ _ _ _ _ _ => Opcode.ffma4.code * 16777216 + encA f
  | .nop g => Opcode.nop.code * 16777216 + encGuard g
  | .bra g disp => Opcode.bra.code * 16777216 + encGuard g + disp.toNat
  | .brx g a fa => Opcode.brx.code * 16777216 + encGuard g + a.val * 256 + fa.toNat * 2
  | .bru g sa nz fs _ => Opcode.bru.code * 16777216 + encGuard g + sa.val * 16384 + nz.toNat * 8192 + fs.toNat * 4096
  | .call g fc disp => Opcode.call.code * 16777216 + encGuard g + fc.val * 131072 + disp.toNat
  | .callx g fc a fa => Opcode.callx.code * 16777216 + encGuard g + fc.val * 131072 + a.val * 256 + fa.toNat * 2
  | .ret g => Opcode.ret.code * 16777216 + encGuard g
  | .spawn g d wo _ => Opcode.spawn.code * 16777216 + encGuard g + d.val * 16384 + wo.val * 256
  | .quit g => Opcode.quit.code * 16777216 + encGuard g
  | .yieldTurn g => Opcode.yieldTurn.code * 16777216 + encGuard g
  | .trap g code => Opcode.trap.code * 16777216 + encGuard g + code.toNat
  | .bkpt g code => Opcode.bkpt.code * 16777216 + encGuard g + code.toNat
  | .tret g => Opcode.tret.code * 16777216 + encGuard g
  | .ldB8 f => Opcode.ldB8.code * 16777216 + encM f
  | .ldS8 f => Opcode.ldS8.code * 16777216 + encM f
  | .ldB16 f => Opcode.ldB16.code * 16777216 + encM f
  | .ldS16 f => Opcode.ldS16.code * 16777216 + encM f
  | .ldB32 f => Opcode.ldB32.code * 16777216 + encM f
  | .ldB64 f => Opcode.ldB64.code * 16777216 + encM f
  | .ldB128 f => Opcode.ldB128.code * 16777216 + encM f
  | .stB8 f => Opcode.stB8.code * 16777216 + encM f
  | .stB16 f => Opcode.stB16.code * 16777216 + encM f
  | .stB32 f => Opcode.stB32.code * 16777216 + encM f
  | .stB64 f => Opcode.stB64.code * 16777216 + encM f
  | .stB128 f => Opcode.stB128.code * 16777216 + encM f
  | .lds f => Opcode.lds.code * 16777216 + encM f
  | .sts f => Opcode.sts.code * 16777216 + encM f
  | .ldc f => Opcode.ldc.code * 16777216 + encM f
  | .stc f => Opcode.stc.code * 16777216 + encM f
  | .ldx f _ _ _ _ => Opcode.ldx.code * 16777216 + encM f
  | .stx f _ _ _ _ => Opcode.stx.code * 16777216 + encM f
  | .lea f _ _ => Opcode.lea.code * 16777216 + encM f
  | .atom g d m _ _ _ _ => Opcode.atom.code * 16777216 + encGuard g + d.val * 16384 + encAtom0 m
  | .atomcas g d m _ _ _ _ _ _ => Opcode.atomcas.code * 16777216 + encGuard g + d.val * 16384 + encAtom0 m
  | .red g m _ _ _ _ => Opcode.red.code * 16777216 + encGuard g + encAtom0 m
  | .fence g scope => Opcode.fence.code * 16777216 + encGuard g + scope.code
  | .cctl g op vo sbase fa scale => Opcode.cctl.code * 16777216 + encGuard g + op.code * 16384 + vo.val * 256 + sbase.val * 4 + fa.toNat * 2 + scale.toNat
  | .icinv g scope vo sbase fa scale => Opcode.icinv.code * 16777216 + encGuard g + scope.code * 16384 + vo.val * 256 + sbase.val * 4 + fa.toNat * 2 + scale.toNat
  | .prefetch g sliceOnly vo sbase fa scale => Opcode.prefetch.code * 16777216 + encGuard g + sliceOnly.toNat * 262144 + vo.val * 256 + sbase.val * 4 + fa.toNat * 2 + scale.toNat
  | .shflIdx f => Opcode.shflIdx.code * 16777216 + encA f
  | .shflUp f => Opcode.shflUp.code * 16777216 + encA f
  | .shflDown f => Opcode.shflDown.code * 16777216 + encA f
  | .shflXor f => Opcode.shflXor.code * 16777216 + encA f
  | .vote g pd mode ps => Opcode.vote.code * 16777216 + encGuard g + pd.val * 131072 + mode.code * 16384 + ps.val * 2048
  | .ballot g d ps => Opcode.ballot.code * 16777216 + encGuard g + d.val * 16384 + ps.val * 2048
  | .matchLanes f => Opcode.matchLanes.code * 16777216 + encU f
  | .elect g pd d => Opcode.elect.code * 16777216 + encGuard g + pd.val * 131072 + d.val * 256
  | .redux f _ _ _ => Opcode.redux.code * 16777216 + encU f
  | .scan f _ _ _ _ => Opcode.scan.code * 16777216 + encU f
  | .readlane g d a sb fa fb => Opcode.readlane.code * 16777216 + encGuard g + d.val * 16384 + a.val * 256 + sb.val * 4 + fa.toNat * 2 + fb.toNat
  | .barArrive g o => Opcode.barArrive.code * 16777216 + encGuard g + encBar o
  | .barWait g o => Opcode.barWait.code * 16777216 + encGuard g + encBar o
  | .barSync g o => Opcode.barSync.code * 16777216 + encGuard g + encBar o
  | .barInit g a o => Opcode.barInit.code * 16777216 + encGuard g + a.val * 256 + encBar o
  | .barDrop g o => Opcode.barDrop.code * 16777216 + encGuard g + encBar o
  | .barTest g pd o => Opcode.barTest.code * 16777216 + encGuard g + pd.val * 131072 + encBar o
  | .deqPush g vs a fa => Opcode.deqPush.code * 16777216 + encGuard g + vs.val * 16384 + a.val * 256 + fa.toNat * 2
  | .deqPop g d vs => Opcode.deqPop.code * 16777216 + encGuard g + d.val * 16384 + vs.val * 4
  | .deqSteal g d vs => Opcode.deqSteal.code * 16777216 + encGuard g + d.val * 16384 + vs.val * 4
  | .launch g d a sb fa fb => Opcode.launch.code * 16777216 + encGuard g + d.val * 16384 + a.val * 256 + sb.val * 4 + fa.toNat * 2 + fb.toNat
  | .regGrow g n => Opcode.regGrow.code * 16777216 + encGuard g + n.toNat
  | .regShrink g n => Opcode.regShrink.code * 16777216 + encGuard g + n.toNat
  | .step g d sb fb => Opcode.step.code * 16777216 + encGuard g + d.val * 16384 + sb.val * 4 + fb.toNat
  | .tcfg g t sb fb => Opcode.tcfg.code * 16777216 + encGuard g + t.val * 16384 + sb.val * 4 + fb.toNat
  | .tstat g d t => Opcode.tstat.code * 16777216 + encGuard g + d.val * 16384 + t.val * 256
  | .tzero g t => Opcode.tzero.code * 16777216 + encGuard g + t.val
  | .tfree g t => Opcode.tfree.code * 16777216 + encGuard g + t.val
  | .mma g sp ta tb _ _ _ _ => Opcode.mma.code * 16777216 + encGuard g + sp.val * 16384 + ta.val * 1024 + tb.val * 64
  | .epi g sp t _ _ _ _ _ _ _ _ => Opcode.epi.code * 16777216 + encGuard g + sp.val * 16384 + t.val * 1024
  | .copy g sp t _ _ _ _ _ => Opcode.copy.code * 16777216 + encGuard g + sp.val * 16384 + t.val * 1024
  | .tcvt g m mode ta t => Opcode.tcvt.code * 16777216 + encGuard g + m.toNat * 131072 + mode.code * 16384 + ta.val * 16 + t.val
  | .tmovGet g d t b fb => Opcode.tmov.code * 16777216 + encGuard g + d.val * 16384 + t.val * 256 + b.val * 4 + fb.toNat
  | .tmovSet g v t b fa fb => Opcode.tmov.code * 16777216 + encGuard g + v.val * 16384 + t.val * 256 + b.val * 4 + fa.toNat * 2 + fb.toNat + 8192
  | .namePub g t sb fb => Opcode.namePub.code * 16777216 + encGuard g + t.val * 16384 + sb.val * 4 + fb.toNat
  | .nameGet g t sb fb => Opcode.nameGet.code * 16777216 + encGuard g + t.val * 16384 + sb.val * 4 + fb.toNat
  | .nameRetire g sb fb => Opcode.nameRetire.code * 16777216 + encGuard g + sb.val * 4 + fb.toNat
  | .nameDrop g t => Opcode.nameDrop.code * 16777216 + encGuard g + t.val * 16384
  | .pwrHint g h => Opcode.pwrHint.code * 16777216 + encGuard g + h.code
  | .lanechk g d groups => Opcode.lanechk.code * 16777216 + encGuard g + d.val * 16384 + groups.toNat
  | .unassignedOpcodeIssue w => w.toNat
  | .longLatencyWriteback .. => 0
  | .steeringAdoption .. => 0
  | .domainBarrierArrival .. => 0
  | .domainBarrierCompletion .. => 0
  | .launchRecordRead .. => 0
  | .qctlWrite .. => 0
  | .detlidWrite .. => 0
  | .viollidWrite .. => 0
  | .admviolRead .. => 0
  | .regGrowGrant .. => 0
  | .stallSwapOut .. => 0
  | .stepBoundary .. => 0
  | .checkpointCopyDone .. => 0
  | .bankroleWrite .. => 0
  | .unitRetirement .. => 0
  | .evacuationLineCopy .. => 0
  | .unitFailed .. => 0
  | .pageWalk .. => 0
  | .tlbiGo .. => 0
  | .leaseRecall .. => 0
  | .fenceResolve .. => 0
  | .speculativeRollback .. => 0
  | .detAtomicApply .. => 0
  | .storeGateRelease .. => 0
  | .icinvComplete .. => 0
  | .commandAdmission .. => 0
  | .engineStop .. => 0
  | .engineEnd .. => 0
  | .columnResidueMismatch .. => 0
  | .mmaCompletion .. => 0
  | .epiCompletion .. => 0
  | .copyCompletion .. => 0
  | .tcvtCompletion .. => 0
  | .faultRecordPost .. => 0
  | .fqctlWrite .. => 0
  | .fqrespResume .. => 0
  | .fqrespDeliver .. => 0
  | .fqrespEnd .. => 0
  | .serviceSwapOut .. => 0
  | .swapreq .. => 0
  | .swapOut .. => 0
  | .droopReport .. => 0
  | .selfTest .. => 0
  | .fictlWrite .. => 0
  | .telemetryFrame .. => 0
  | .stepFrame .. => 0
  | .gridConfigWrite .. => 0
  | .throttleInterval .. => 0
  | .laneGroupRetention .. => 0
  | .clusterRetentionEntry .. => 0
  | .clusterWake .. => 0
  | .cretmissRead .. => 0
  | .peerRequest .. => 0
  | .peerResponse .. => 0
  | .peerFaultResponse .. => 0
  | .peerTimeout .. => 0
  | .pflogCtlWrite .. => 0
  | .interestMsg .. => 0
  | .tileMsg .. => 0
  | .endMsg .. => 0
  | .retireMsg .. => 0
  | .restoreComplete .. => 0
  | .measExtend .. => 0
  | .maarQuoteRequest .. => 0
  | .iftGo .. => 0
  | .iftComplete .. => 0
  | .bootStage .. => 0
  | .hostWindowAccess .. => 0
  | .registerWrite .. => 0
  | .clauseEntry .. => 0
  | .launchStart .. => 0
  | .gangPlacement .. => 0
  | .completionWordWrite .. => 0
  | .detcntRead .. => 0
  | .violcntRead .. => 0
  | .serviceLevelChange .. => 0
  | .tlbiComplete .. => 0
  | .horizonPublish .. => 0
  | .admissionInterval .. => 0
  | .stepAcknowledgement .. => 0
  | .linkLost .. => 0
  | .shedDeadline .. => 0
  | .backstop .. => 0
  | .frameerrRead .. => 0
  | .drain .. => 0
  | .powerReturn .. => 0
  | .holdExpiry .. => 0
  | .tsctlFlush .. => 0
  | .namerefRead .. => 0
  | .faceExpiry .. => 0
  | .restoreGo .. => 0
  | .quoteRequest .. => 0
  | .powerGood .. => 0
  | .discardedFrame .. => 0
  | .quoteComplete .. => 0

/-- Word 1 of a two-word instruction (R66). -/
def encode1 : Instr → Option Nat
  | .iadd .. => none
  | .iaddi .. => none
  | .isub .. => none
  | .iadd64 .. => none
  | .isub64 .. => none
  | .imul .. => none
  | .imulhiS32 .. => none
  | .imulhiN32 .. => none
  | .imulwS32 .. => none
  | .imulwN32 .. => none
  | .idivS32 .. => none
  | .idivN32 .. => none
  | .iremS32 .. => none
  | .iremN32 .. => none
  | .iminS32 .. => none
  | .iminN32 .. => none
  | .imaxS32 .. => none
  | .imaxN32 .. => none
  | .iabs .. => none
  | .iaddsatS32 .. => none
  | .isubsatS32 .. => none
  | .idot4S8 .. => none
  | .and .. => none
  | .or .. => none
  | .xor .. => none
  | .andn .. => none
  | .andi .. => none
  | .ori .. => none
  | .xori .. => none
  | .shl .. => none
  | .shr .. => none
  | .sar .. => none
  | .rotl .. => none
  | .shli .. => none
  | .shri .. => none
  | .sari .. => none
  | .popc .. => none
  | .clz .. => none
  | .brev .. => none
  | .bfxN32 .. => none
  | .bfxS32 .. => none
  | .bfi .. => none
  | .icmp .. => none
  | .pcomb .. => none
  | .pick .. => none
  | .pread .. => none
  | .pwrite .. => none
  | .mov .. => none
  | .movs .. => none
  | .salu .. => none
  | .salui .. => none
  | .srget .. => none
  | .srset .. => none
  | .movi _ _ imm => some (imm.toNat)
  | .smovi _ _ imm => some (imm.toNat)
  | .imad _ c fc var => some (c.val * 67108864 + fc.toNat * 33554432 + var.code * 4194304)
  | .fadd .. => none
  | .fsub .. => none
  | .fmul .. => none
  | .ffma .. => none
  | .ffms .. => none
  | .ffnma .. => none
  | .fmin .. => none
  | .fmax .. => none
  | .fcmp .. => none
  | .fabs .. => none
  | .fneg .. => none
  | .fclass .. => none
  | .fscale .. => none
  | .fround .. => none
  | .faddH2 .. => none
  | .fmulH2 .. => none
  | .ffmaH2 .. => none
  | .fminH2 .. => none
  | .fmaxH2 .. => none
  | .fcmpH2 .. => none
  | .faddB2 .. => none
  | .fmulB2 .. => none
  | .ffmaB2 .. => none
  | .fminB2 .. => none
  | .fmaxB2 .. => none
  | .fcmpB2 .. => none
  | .frcp .. => none
  | .frsq .. => none
  | .fsqrt .. => none
  | .fex2 .. => none
  | .flg2 .. => none
  | .fsin .. => none
  | .fcos .. => none
  | .ftanh .. => none
  | .cvt .. => none
  | .cvtpk .. => none
  | .fdot2B2 .. => none
  | .cvtx _ _ _ _ dst src mode sat useSlot slot => some (dst.code * 268435456 + src.code * 16777216 + mode.code * 2097152 + sat.toNat * 1048576 + useSlot.toNat * 524288 + slot.val * 65536)
  | .ffma4 _ c fc mode ty np nc => some (c.val * 67108864 + fc.toNat * 33554432 + mode.code * 4194304 + ty.code * 1048576 + np.toNat * 524288 + nc.toNat * 262144)
  | .nop .. => none
  | .bra .. => none
  | .brx .. => none
  | .bru _ _ _ _ disp => some (disp.toNat)
  | .call .. => none
  | .callx .. => none
  | .ret .. => none
  | .spawn _ _ _ disp => some (disp.toNat)
  | .quit .. => none
  | .yieldTurn .. => none
  | .trap .. => none
  | .bkpt .. => none
  | .tret .. => none
  | .ldB8 .. => none
  | .ldS8 .. => none
  | .ldB16 .. => none
  | .ldS16 .. => none
  | .ldB32 .. => none
  | .ldB64 .. => none
  | .ldB128 .. => none
  | .stB8 .. => none
  | .stB16 .. => none
  | .stB32 .. => none
  | .stB64 .. => none
  | .stB128 .. => none
  | .lds .. => none
  | .sts .. => none
  | .ldc .. => none
  | .stc .. => none
  | .ldx _ off size pol scope => some (off.toNat * 256 + size.code * 32 + pol.code * 8 + scope.code)
  | .stx _ off size pol scope => some (off.toNat * 256 + size.code * 32 + pol.code * 8 + scope.code)
  | .lea _ off size => some (off.toNat * 256 + size.code * 32)
  | .atom _ _ m b fb op ty => some (encAtom1 m + b.val * 67108864 + fb.toNat * 33554432 + op.code * 1048576 + ty.code * 65536)
  | .atomcas _ _ m b fb c fc ty pd => some (encAtom1 m + b.val * 67108864 + fb.toNat * 33554432 + c.val * 524288 + fc.toNat * 262144 + ty.code * 65536 + pd.val * 512)
  | .red _ m b fb op ty => some (encAtom1 m + b.val * 67108864 + fb.toNat * 33554432 + op.code * 1048576 + ty.code * 65536)
  | .fence .. => none
  | .cctl .. => none
  | .icinv .. => none
  | .prefetch .. => none
  | .shflIdx .. => none
  | .shflUp .. => none
  | .shflDown .. => none
  | .shflXor .. => none
  | .vote .. => none
  | .ballot .. => none
  | .matchLanes .. => none
  | .elect .. => none
  | .redux _ op ty mode => some (op.code * 268435456 + ty.code * 16777216 + mode.code * 2097152)
  | .scan _ op ty mode ex => some (op.code * 268435456 + ty.code * 16777216 + mode.code * 2097152 + ex.toNat * 1048576)
  | .readlane .. => none
  | .barArrive .. => none
  | .barWait .. => none
  | .barSync .. => none
  | .barInit .. => none
  | .barDrop .. => none
  | .barTest .. => none
  | .deqPush .. => none
  | .deqPop .. => none
  | .deqSteal .. => none
  | .launch .. => none
  | .regGrow .. => none
  | .regShrink .. => none
  | .step .. => none
  | .tcfg .. => none
  | .tstat .. => none
  | .tzero .. => none
  | .tfree .. => none
  | .mma _ _ _ _ slot opn cls neg => some (slot.val * 536870912 + opn.toNat * 268435456 + cls.toNat * 134217728 + neg.toNat * 67108864)
  | .epi _ _ _ dst act fslot rsc csc rbi cbi pol => some (dst.code * 1073741824 + act.code * 268435456 + fslot.val * 33554432 + rsc.toNat * 16777216 + csc.toNat * 8388608 + rbi.toNat * 4194304 + cbi.toNat * 2097152 + pol.code * 524288)
  | .copy _ _ _ src dst mode esz pol => some (src.code * 1073741824 + dst.code * 268435456 + mode.code * 67108864 + esz.val * 8388608 + pol.code * 2097152)
  | .tcvt .. => none
  | .tmovGet .. => none
  | .tmovSet .. => none
  | .namePub .. => none
  | .nameGet .. => none
  | .nameRetire .. => none
  | .nameDrop .. => none
  | .pwrHint .. => none
  | .lanechk .. => none
  | .unassignedOpcodeIssue _ => none
  | .longLatencyWriteback .. => none
  | .steeringAdoption .. => none
  | .domainBarrierArrival .. => none
  | .domainBarrierCompletion .. => none
  | .launchRecordRead .. => none
  | .qctlWrite .. => none
  | .detlidWrite .. => none
  | .viollidWrite .. => none
  | .admviolRead .. => none
  | .regGrowGrant .. => none
  | .stallSwapOut .. => none
  | .stepBoundary .. => none
  | .checkpointCopyDone .. => none
  | .bankroleWrite .. => none
  | .unitRetirement .. => none
  | .evacuationLineCopy .. => none
  | .unitFailed .. => none
  | .pageWalk .. => none
  | .tlbiGo .. => none
  | .leaseRecall .. => none
  | .fenceResolve .. => none
  | .speculativeRollback .. => none
  | .detAtomicApply .. => none
  | .storeGateRelease .. => none
  | .icinvComplete .. => none
  | .commandAdmission .. => none
  | .engineStop .. => none
  | .engineEnd .. => none
  | .columnResidueMismatch .. => none
  | .mmaCompletion .. => none
  | .epiCompletion .. => none
  | .copyCompletion .. => none
  | .tcvtCompletion .. => none
  | .faultRecordPost .. => none
  | .fqctlWrite .. => none
  | .fqrespResume .. => none
  | .fqrespDeliver .. => none
  | .fqrespEnd .. => none
  | .serviceSwapOut .. => none
  | .swapreq .. => none
  | .swapOut .. => none
  | .droopReport .. => none
  | .selfTest .. => none
  | .fictlWrite .. => none
  | .telemetryFrame .. => none
  | .stepFrame .. => none
  | .gridConfigWrite .. => none
  | .throttleInterval .. => none
  | .laneGroupRetention .. => none
  | .clusterRetentionEntry .. => none
  | .clusterWake .. => none
  | .cretmissRead .. => none
  | .peerRequest .. => none
  | .peerResponse .. => none
  | .peerFaultResponse .. => none
  | .peerTimeout .. => none
  | .pflogCtlWrite .. => none
  | .interestMsg .. => none
  | .tileMsg .. => none
  | .endMsg .. => none
  | .retireMsg .. => none
  | .restoreComplete .. => none
  | .measExtend .. => none
  | .maarQuoteRequest .. => none
  | .iftGo .. => none
  | .iftComplete .. => none
  | .bootStage .. => none
  | .hostWindowAccess .. => none
  | .registerWrite .. => none
  | .clauseEntry .. => none
  | .launchStart .. => none
  | .gangPlacement .. => none
  | .completionWordWrite .. => none
  | .detcntRead .. => none
  | .violcntRead .. => none
  | .serviceLevelChange .. => none
  | .tlbiComplete .. => none
  | .horizonPublish .. => none
  | .admissionInterval .. => none
  | .stepAcknowledgement .. => none
  | .linkLost .. => none
  | .shedDeadline .. => none
  | .backstop .. => none
  | .frameerrRead .. => none
  | .drain .. => none
  | .powerReturn .. => none
  | .holdExpiry .. => none
  | .tsctlFlush .. => none
  | .namerefRead .. => none
  | .faceExpiry .. => none
  | .restoreGo .. => none
  | .quoteRequest .. => none
  | .powerGood .. => none
  | .discardedFrame .. => none
  | .quoteComplete .. => none

/-- The words of a well-formed instruction, the first first. -/
def encode (i : Instr) : List Word :=
  BitVec.ofNat 32 (encode0 i) :: (encode1 i).toList.map (BitVec.ofNat 32)

/-- R64 steps 1 and 2 for a word `w` and, where its opcode has two, the word `v` after it. A reserved bit is a bit that
the layout gives to no field, so a word with one set is not the encoding of its own fields. An unassigned opcode counts
as one word and is an instruction of its own, which takes ILLEGAL_OPCODE (R65). -/
def decodeNat (w v : Nat) : Except Reject Instr :=
  match Opcode.ofCode (w / 16777216) with
  | none => .ok (.unassignedOpcodeIssue (BitVec.ofNat 32 w))
  | some o =>
    match extract o w v with
    | none => .error .reservedField
    | some i => if encode0 i == w && (encode1 i == none || encode1 i == some v) && fieldsOk i then .ok i
      else .error .reservedField

/-- The decoder of words. -/
def decodeWords (w v : Word) : Except Reject Instr := decodeNat w.toNat v.toNat

/-- How many words the instruction that begins with this word has (R51, R66). -/
def wordCount (w : Word) : Nat :=
  match Opcode.ofCode (w.toNat / 16777216) with
  | some o => if o.isTwoWord then 2 else 1
  | none => 1

/-- A word from four bytes, the lowest-addressed first (R7). -/
def wordOfBytes (a b c d : Byte) : Word := d ++ c ++ b ++ a

/-- The bytes of a word, the lowest-addressed first (R7). -/
def bytesOfWord (w : Word) : List Byte :=
  [w.extractLsb' 0 8, w.extractLsb' 8 8, w.extractLsb' 16 8, w.extractLsb' 24 8]

/-- The decoder of a byte stream: the instruction and the bytes after it. -/
def decode : List Byte → Except Reject (Instr × List Byte)
  | a :: b :: c :: d :: rest =>
    let w := wordOfBytes a b c d
    if wordCount w = 2 then
      match rest with
      | e :: f :: g :: h :: rest2 => (decodeWords w (wordOfBytes e f g h)).map (fun i => (i, rest2))
      | _ => .error .truncated
    else (decodeWords w 0).map (fun i => (i, rest))
  | _ => .error .truncated

/-- The bytes of an instruction whose bits are `w`, numbered as spec/opcode_table.json numbers them, with every bit above
given as 0, up to the longest instruction: two words. -/
def tableBytes (w : Nat) : List Byte :=
  bytesOfWord (BitVec.ofNat 32 w) ++ bytesOfWord (BitVec.ofNat 32 (w / 4294967296))

/-- The instruction that the decoder reads from an instruction of `nbits` bits `w` (bits above `nbits` are 0). -/
def decodeTableWord (nbits w : Nat) : Option Instr :=
  match decode (tableBytes (w % 2 ^ nbits)) with
  | .ok (i, _) => some i
  | .error _ => none

end Sys2Proof
end

