-- ==== Sys2Proof/Machine/Num.lean ====
section
/-! DEFINITION. Integer helpers of R32 and R74, and the bit operations of R77 to R82. -/

namespace Sys2Proof.Machine

/-- Low 32 bits of an exact integer: `Wrap(x, b32)` (R32). -/
def wrap32 (x : Int) : Word := BitVec.ofInt 32 x

/-- Low 64 bits of an exact integer: `Wrap(x, b64)` (R32). -/
def wrap64 (x : Int) : DWord := BitVec.ofInt 64 x

/-- `SatInt(x, t)` for the type with bounds lo and hi (R32). -/
def satInt (x lo hi : Int) : Int := if x < lo then lo else if hi < x then hi else x

/-- `SatInt(x, s32)`. -/
def satS32 (x : Int) : Word := wrap32 (satInt x (-2147483648) 2147483647)

/-- A 64-bit value from its low and high word (R31). -/
def pair64 (lo hi : Word) : DWord := hi ++ lo
/-- Low word of a pair (R31). -/
def lo32 (x : DWord) : Word := x.extractLsb' 0 32
/-- High word of a pair (R31). -/
def hi32 (x : DWord) : Word := x.extractLsb' 32 32
/-- `.lo` half (R7). -/
def loHalf (x : Word) : BitVec 16 := x.extractLsb' 0 16
/-- `.hi` half (R7). -/
def hiHalf (x : Word) : BitVec 16 := x.extractLsb' 16 16
/-- A pair of halves (R7). -/
def ofHalves (lo hi : Nat) : Word := BitVec.ofNat 32 (hi % 65536 * 65536 + lo % 65536)

/-- `Sext(x, n)` for the bits of a field of width n (R74). -/
def sext {n : Nat} (x : BitVec n) : Int := x.toInt

/-- IDIV and IREM (R79): quotient and remainder, signed. -/
def divS (a b : Word) : Word × Word :=
  if b.toInt = 0 then (wrap32 (-1), a)
  else if a.toInt = -2147483648 ∧ b.toInt = -1 then (a, 0)
  else
    let q := Int.tdiv a.toInt b.toInt
    (wrap32 q, wrap32 (a.toInt - q * b.toInt))

/-- IDIV and IREM (R79): quotient and remainder, unsigned. -/
def divN (a b : Word) : Word × Word :=
  if b.toNat = 0 then (0xFFFFFFFF, a)
  else (BitVec.ofNat 32 (a.toNat / b.toNat), BitVec.ofNat 32 (a.toNat % b.toNat))

/-- Byte i of a word. -/
def byteAt (x : Word) (i : Nat) : Byte := x.extractLsb' (8 * i) 8

/-- IDOT4.s8 (R80). -/
def dot4 (acc a b : Word) : Word :=
  wrap32 ((List.range 4).foldl (fun s i => s + (byteAt a i).toInt * (byteAt b i).toInt) acc.toInt)

/-- The number of 1 bits (POPC, R77). -/
def popcount (x : Word) : Word := BitVec.ofNat 32 ((List.range 32).countP (fun i => x.getLsbD i))

/-- The number of 0 bits above the highest 1 bit (CLZ, R77). -/
def countLeadingZeros (x : Word) : Word := BitVec.ofNat 32 (if x.toNat = 0 then 32 else 31 - Nat.log2 x.toNat)

/-- Bit i moved to bit 31 - i (BREV, R77). -/
def bitReverse (x : Word) : Word :=
  BitVec.ofNat 32 ((List.range 32).foldl (fun s i => s + (if x.getLsbD i then 2 ^ (31 - i) else 0)) 0)

/-- SHL by a count below 32 (R77). -/
def shlW (a : Word) (c : Nat) : Word := BitVec.ofNat 32 (a.toNat * 2 ^ c)
/-- SHR by a count below 32 (R77). -/
def shrW (a : Word) (c : Nat) : Word := BitVec.ofNat 32 (a.toNat / 2 ^ c)
/-- SAR by a count below 32 (R77): floor of the signed quotient. -/
def sarW (a : Word) (c : Nat) : Word := wrap32 (Int.fdiv a.toInt (2 ^ c))
/-- ROTL by a count below 32 (R77). -/
def rotlW (a : Word) (c : Nat) : Word := if c = 0 then a else a <<< c ||| a >>> (32 - c)

/-- The position and effective length of a bit field described by vb (R81). -/
def fieldOf (b : Word) : Nat × Nat :=
  let pos := b.toNat % 32
  (pos, min (b.toNat / 256 % 64) (32 - pos))

/-- BFX.n32 (R81). -/
def bfxN (a b : Word) : Word :=
  let (pos, len) := fieldOf b
  BitVec.ofNat 32 (a.toNat / 2 ^ pos % 2 ^ len)

/-- BFX.s32 (R81). -/
def bfxS (a b : Word) : Word :=
  let (pos, len) := fieldOf b
  let v := a.toNat / 2 ^ pos % 2 ^ len
  if len = 0 then 0 else if 2 ^ (len - 1) ≤ v then wrap32 ((v : Int) - 2 ^ len) else BitVec.ofNat 32 v

/-- BFI (R81). -/
def bfi (d a b : Word) : Word :=
  let (pos, len) := fieldOf b
  let mask := BitVec.ofNat 32 ((2 ^ len - 1) * 2 ^ pos)
  (d &&& ~~~mask) ||| (BitVec.ofNat 32 (a.toNat * 2 ^ pos) &&& mask)

/-- The sub-operations of the uniform ALU on 32-bit operands (R92). The 64-bit ones are formed apart. -/
def saluResult (op : SaluOp) (a b : Word) : Word :=
  let c := b.toNat % 32
  let one (p : Bool) : Word := if p then 1 else 0
  match op with
  | .add => a + b
  | .sub => a - b
  | .mul => a * b
  | .and => a &&& b
  | .or => a ||| b
  | .xor => a ^^^ b
  | .andn => a &&& ~~~b
  | .shl => shlW a c
  | .shr => shrW a c
  | .sar => sarW a c
  | .minS => if a.toInt ≤ b.toInt then a else b
  | .minN => if a.toNat ≤ b.toNat then a else b
  | .maxS => if a.toInt ≤ b.toInt then b else a
  | .maxN => if a.toNat ≤ b.toNat then b else a
  | .mov => b
  | .seq => one (a == b)
  | .sne => one (a != b)
  | .sltS => one (decide (a.toInt < b.toInt))
  | .sltN => one (decide (a.toNat < b.toNat))
  | .sleS => one (decide (a.toInt ≤ b.toInt))
  | .sleN => one (decide (a.toNat ≤ b.toNat))
  | .popc => popcount a
  | .clz => countLeadingZeros a
  | .add64 | .addp64 | .subp64 => 0

/-- One step of the stochastic-rounding generator (R25). -/
def genStep (x : Word) : Word :=
  let x := x ^^^ (x <<< 13)
  let x := x ^^^ (x >>> 17)
  x ^^^ (x <<< 5)

/-- A number of steps of the generator. -/
def genSteps : Nat → Word → Word
  | 0, x => x
  | n + 1, x => genSteps n (genStep x)

/-- The seed of a fibre's generator from the launch's seed and the fibre's identity (R26). -/
def genSeed (seed : DWord) (ident : Nat) : Word :=
  let x := lo32 seed ^^^ hi32 seed ^^^ BitVec.ofNat 32 ((ident + 1) * 0x9E3779B9)
  if x = 0 then 0x6A09E667 else x

/-- SRSET of SRGEN: a value of 0 is stored as 0x6A09_E667 (R96). -/
def genFix (x : Word) : Word := if x = 0 then 0x6A09E667 else x

/-- Little-endian bytes of a number. -/
def bytesOf : (n : Nat) → Nat → List Byte
  | 0, _ => []
  | n + 1, x => BitVec.ofNat 8 x :: bytesOf n (x / 256)

/-- The number of little-endian bytes (R7). -/
def ofBytes : List Byte → Nat
  | [] => 0
  | b :: l => b.toNat + 256 * ofBytes l

end Sys2Proof.Machine
end

