-- ==== Sys2Proof/Config.lean ====
section
/-! DEFINITION. What one module fixes, and the free values: constants without a body, which no proof can see into. -/

namespace Sys2Proof.Config

/-- Free value (R95): how many clock periods a core's clock count rises by in the k-th step of the run. -/
opaque clockStep : (core : Nat) → (tick : Nat) → Nat

/-- Free value (R113, R304): which of the two neighbours of a special function's exact result the device returns. The
result depends on the function and the input bits only, so it is a function of them. -/
opaque specialUp : (function : Nat) → (input : Word) → Bool

/-- Free value (R263): whether a fetch before an ICINV completes returns the old word. -/
opaque fetchOld : (tick : Nat) → (address : Nat) → Bool

/-- Free value (R228): the implementation's choice of lease length, less 1. -/
opaque leaseLength : (tick : Nat) → Nat

/-- Free value (R142, R339): whether a unit of a core fails its self-check, beyond the units that injection made fail. -/
opaque selfCheckFails : (tick : Nat) → (core : Nat) → (unit : Nat) → Bool

/-- Free value (R332): whether the lanes of a pair mismatch again when a protected instruction runs again after a mismatch. -/
opaque compareFails : (tick : Nat) → (core : Nat) → Bool

/-- Free value (R331): how many of a warp's last issues are suspect when an injected droop is reported. -/
opaque suspectIssues : (tick : Nat) → (lid : BitVec 32) → (warp : Nat) → Nat

/-- Free value (R350): the measured energy, in nJ, of a command that stops in the k-th step. -/
opaque stopEnergy : (tick : Nat) → (core : Nat) → (command : Nat) → Nat

/-- Free value (R386): what a host read returns in the k-th step where the spec states no value: no memory backs the address,
the sector is poisoned, or the window is the MSI-X one. -/
opaque hostOpen : (tick : Nat) → BitVec 128

/-- Free value (R376): the warps that a domain launch has on the other packages, for a launch that the device itself accepts in the
k-th step (the device queue, a restored checkpoint). -/
opaque otherWarps : (tick : Nat) → (lid : BitVec 32) → Nat

/-- Free value (R42, R327, R392): the generator state at issue of a command that a checkpoint restore brings back in the k-th step; its
record has no field for it. -/
opaque restoredGen : (tick : Nat) → (command : Nat) → BitVec 32

/-- What one module fixes (R394): the fused secret of its security engine. -/
opaque fusedSecret : List Byte

/-- What one module fixes (R394): its fused serial number. -/
opaque serial : BitVec 64

/-- What one module fixes (R393): the four fused key hashes, 64 bytes each. -/
opaque keyHash : Fin 4 → List Byte

/-- What one module fixes (R393): whether the revocation fuse of a key hash is blown. -/
opaque keyRevoked : Fin 4 → Bool

end Sys2Proof.Config
end

