-- ==== Sys2Proof/Machine/Map.lean ====
section
/-! DEFINITION. Sparse data by a number (a list of pairs, strictly rising keys, no entry equal to what an unlisted key
reads as) and by a record key. These are the plain-data maps that State is made of. -/

namespace Sys2Proof.Machine

/-- Data by number: pairs in strictly rising order of key. -/
abbrev NMap (α : Type) := List (Nat × α)

/-- Data by a record key, in order of creation. -/
abbrev KMap (κ α : Type) := List (κ × α)

/-- The entry of a key, if listed. -/
def nget? {α : Type} : NMap α → Nat → Option α
  | [], _ => none
  | (j, a) :: m, k => if j = k then some a else nget? m k

/-- The entry of a key, or the value an unlisted key reads as. -/
def ngetD {α : Type} (m : NMap α) (d : α) (k : Nat) : α := (nget? m k).getD d

/-- Remove a key. -/
def ndel {α : Type} (m : NMap α) (k : Nat) : NMap α := m.filter (fun e => e.1 != k)

/-- List a key with a value, in its place in the order. -/
def nput {α : Type} : NMap α → Nat → α → NMap α
  | [], k, a => [(k, a)]
  | (j, b) :: m, k, a =>
    if j < k then (j, b) :: nput m k a
    else if j = k then (k, a) :: m
    else (k, a) :: (j, b) :: m

/-- Give a key a value, where an unlisted key reads as `d`: writing `d` removes the entry. -/
def nsetD {α : Type} [DecidableEq α] (m : NMap α) (d : α) (k : Nat) (a : α) : NMap α :=
  if a = d then ndel m k else nput m k a

/-- Keys strictly rising from `lo`. -/
def nsortedFrom {α : Type} : Nat → NMap α → Bool
  | _, [] => true
  | lo, (j, _) :: m => decide (lo ≤ j) && nsortedFrom (j + 1) m

/-- The canonical form of a map whose unlisted keys read as `d`. -/
def ncanon {α : Type} [DecidableEq α] (d : α) (m : NMap α) : Bool :=
  nsortedFrom 0 m && m.all (fun e => !(decide (e.2 = d)))

/-- Apply a function to every listed value. -/
def nmap {α β : Type} (f : Nat → α → β) (m : NMap α) : NMap β := m.map (fun e => (e.1, f e.1 e.2))

/-- The entry of a record key, if listed. -/
def kget? {κ α : Type} [DecidableEq κ] : KMap κ α → κ → Option α
  | [], _ => none
  | (j, a) :: m, k => if j = k then some a else kget? m k

/-- Give a record key a value: in place when listed, else at the end. -/
def kput {κ α : Type} [DecidableEq κ] : KMap κ α → κ → α → KMap κ α
  | [], k, a => [(k, a)]
  | (j, b) :: m, k, a => if j = k then (k, a) :: m else (j, b) :: kput m k a

/-- Remove a record key. -/
def kdel {κ α : Type} [DecidableEq κ] (m : KMap κ α) (k : κ) : KMap κ α := m.filter (fun e => decide (e.1 ≠ k))

/-- Insert into a list kept in the order of a measure, after the elements of an equal measure. -/
def insertBy {α : Type} (f : α → Nat) (a : α) : List α → List α
  | [] => [a]
  | b :: l => if f a < f b then a :: b :: l else b :: insertBy f a l

/-- Sort by a measure, keeping the order of elements of an equal measure. -/
def sortBy {α : Type} (f : α → Nat) (l : List α) : List α := l.foldr (fun a acc => insertBefore f a acc) []
where
  /-- Insert before the elements of an equal measure. -/
  insertBefore (f : α → Nat) (a : α) : List α → List α
    | [] => [a]
    | b :: l => if f a ≤ f b then a :: b :: l else b :: insertBefore f a l

/-- The least of a list of numbers. -/
def leastOf : List Nat → Option Nat
  | [] => none
  | a :: l => match leastOf l with
    | none => some a
    | some b => some (min a b)

/-- A list of bits as a number, the first the least significant. -/
def maskOf (l : List Nat) : Nat := l.foldl (fun acc i => acc ||| 2 ^ i) 0

/-- The set bits of a number below `n`, ascending. -/
def bitsOf (n x : Nat) : List Nat := (List.range n).filter (fun i => x.testBit i)

/-- Set or remove an entry. -/
def kset {κ α : Type} [DecidableEq κ] (m : KMap κ α) (k : κ) (a : Option α) : KMap κ α :=
  match a with
  | some a => kput m k a
  | none => kdel m k

end Sys2Proof.Machine
end

