-- ==== Sys2Proof/Machine/State.lean ====
section
/-! DEFINITION. The state of one Chrolla NC40 package and its module, as plain data: every piece of state that the spec
names (INVENTORY.md lists them with their rules), and its value after reset. -/

namespace Sys2Proof.Machine

/-! ## Why a step can stop -/

/-- The reasons a machine can stop with. No meaning of this model raises one: every instruction and every step has an
effect in the spec. The type is closed so that a later reason would have to be named. -/
inductive Fault where
  /-- Raised by no definition. Safe: it stands for "the machine stopped", of which the spec knows no case. -/
  | stopped
  deriving DecidableEq, Repr

/-- The reasons the model refuses an instruction for. -/
inductive Refusal where
  /-- Raised only by an arm of `exec` that has no meaning yet. Safe: it claims nothing of the instruction. -/
  | notModelled (mnemonic : String)
  deriving DecidableEq, Repr

/-! ## Fibres -/

/-- A register entry with its full/empty bit (R12, R18). An unlisted entry reads 0, full. -/
structure Entry where
  val : Word
  full : Bool
  deriving DecidableEq, Repr

/-- The value of an unlisted entry (R12, R178). -/
def Entry.zero : Entry := ⟨0, true⟩

/-- The trap registers TRCAUSE to TRSAVE1 (R94, R97, R313). -/
structure TrapRegs where
  cause : Word := 0
  info0 : Word := 0
  info1 : Word := 0
  pc : Word := 0
  hdr : Word := 0
  save0 : Word := 0
  save1 : Word := 0
  deriving DecidableEq, Repr

/-- Where a deferred cause comes from (R315): the entries a faulted access left empty, an ended engine command, or a
named-tile fill. -/
inductive CauseSource where
  | access (entries : List Nat)
  | command (number : Nat)
  | namedTile (tile : Nat)
  deriving DecidableEq, Repr

/-- A deferred cause that a fibre has not yet taken (R313, R315). -/
structure Deferred where
  cause : BitVec 8
  reason : Nat := 0
  indet : Bool := false
  info0 : Word := 0
  info1 : Word := 0
  source : CauseSource
  /-- The operand-log entry that holds the access until delivery (R315, R373). -/
  log : Option Nat := none
  deriving DecidableEq, Repr

/-- The last-page register of a fibre slot (R219, R325). -/
structure LastPage where
  vpage : Nat
  ppage : Nat
  r : Bool
  w : Bool
  x : Bool
  gen : Word
  deriving DecidableEq, Repr

/-- One fibre (R12, R56, R144, R312, R315). -/
structure Fibre where
  /-- The word offset of the next instruction word, or of the header it stands at. -/
  pc : Word
  /-- Header address H of the clause the fibre stands in; the PC at a boundary. -/
  hdr : Word
  /-- The fibre stands inside a clause (b = 0 of R144). -/
  inside : Bool := false
  /-- The words fetched with the clause's header (R56); their number is N. -/
  body : List Word := []
  /-- The fibre stands inside a clause whose header must be fetched again first (R56, R126). -/
  refetch : Bool := false
  /-- The LOOP, YIELD, CLASS and N bits of that header are in this word. -/
  hword : Word := 0
  depth : Nat := 0
  lr : Word := 0
  wb : Nat := 0
  preds : BitVec 7 := 0
  entries : NMap Entry := []
  gen : Word
  handler : Bool := false
  tr : TrapRegs := {}
  /-- Deferred causes in the order they became known; the first is the recorded one (R315). -/
  causes : List Deferred := []
  lastPage : Option LastPage := none
  /-- Empty entries whose contents a steering move could not correct (R143): poisoned, until a producer overwrites them (R334). -/
  lost : List Nat := []
  deriving DecidableEq, Repr

/-! ## Accesses of a warp that are not yet complete -/

/-- The name of a warp: its launch and its logical warp number (R136). -/
structure WarpKey where
  lid : Word
  w : Nat
  deriving DecidableEq, Repr

/-- The name of a group: its launch and its linear index (R177). -/
structure GroupKey where
  lid : Word
  g : Nat
  deriving DecidableEq, Repr

/-- A place in memory (a domain physical address, R206) or in a group's scratch (R203). -/
inductive Loc where
  | mem (pa : Nat)
  | scr (g : GroupKey) (off : Nat)
  deriving DecidableEq, Repr

/-- The update an atomic or reduction makes of one element (R255, R257). -/
inductive Update where
  | op (op : AtomOp) (ty : AtomType) (x : DWord)
  | cas (ty : CasType) (expected new : DWord)
  deriving DecidableEq, Repr

/-- One unit of an atomic: a member of O (R256). `part` 0 is the whole element or the `.lo` half, 1 the `.hi` half. -/
structure AtomUnit where
  lane : Lane
  part : Nat
  loc : Loc
  size : Nat
  upd : Update
  /-- The unit is one half of a straddling pair; the old value of its other half, once that is performed. -/
  straddles : Bool := false
  other : Option Nat := none
  deriving DecidableEq, Repr

/-- How a load's bytes become register entries (R129). -/
inductive LoadConv where
  | zext | sext8 | sext16 | words (n : Nat)
  deriving DecidableEq, Repr

/-- The states of a tile register (R279). -/
inductive TileState where
  | empty | filling | ready | draining
  deriving DecidableEq, Repr

/-- A name (R377). -/
structure Name where
  tensor : Word
  index : Word
  iter : Word
  deriving DecidableEq, Repr

/-- What a tile instruction does to its tile (R278, R295, R308). -/
inductive TileAct where
  | configure (ctl : Word)
  | zero
  | free
  /-- Words of the image, in the order in which they are written. -/
  | words (l : List (Nat × Word))
  deriving DecidableEq, Repr
/-- A deque instruction (R187). -/
inductive DequeAct where
  | push
  | pop
  | steal
  deriving DecidableEq, Repr
/-- A NAME instruction (R383): its tile, its name, and for GET the lifetime of the interest and the issuing fibre's lane. -/
inductive NameAct where
  | pub (t : Nat) (n : Name)
  | get (t : Nat) (n : Name) (life lane : Nat)
  | retire (n : Name)
  | drop (t : Nat)
  deriving DecidableEq, Repr
/-- An effect that the store gate holds in order with the stores of its warp (R329). -/
inductive Held where
  | tile (t : Nat) (act : TileAct)
  /-- An engine command or a conversion, which stands on its core from its issue and starts when it leaves the gate; for one that
  fills a tile, the state in which the fill found it. -/
  | command (num : Nat) (found : Option TileState)
  /-- For each acting lane the operand and the destination entries. -/
  | deque (act : DequeAct) (lanes : List (Lane × DWord × List Nat))
  | name (act : NameAct)
  | hint (h : PwrHint)
  /-- BAR.INIT's new E. -/
  | setE (o : BarOp) (e : Nat)
  | dropOut (o : BarOp)
  deriving DecidableEq, Repr

/-- What is outstanding. -/
inductive PendKind where
  /-- A long-latency result already formed: it writes entries and marks them full (R18). -/
  | regs (writes : List (Nat × Word))
  /-- A load of `size` bytes into the entries `dst` (R130, R251). -/
  | load (loc : Loc) (size : Nat) (conv : LoadConv) (dst : List Nat)
  /-- A gated store (R130, R329). -/
  | store (loc : Loc) (bytes : List Byte)
  /-- A run of atomic units of one instruction, one member after another without a gap (R232, R256); for each lane that
  returns a value, its destination entries, and for ATOMCAS its success predicate. -/
  | atom (units : List AtomUnit) (dst : List (Lane × List Nat)) (pred : Option Nat)
  /-- A reduction unit on its way to the combining buffer or its home slice (R233, R246, R258): `halves` as in an entry. -/
  | red (loc : Loc) (halves : Nat) (op : AtomOp) (ty : AtomType) (scope : Scope) (x : DWord)
  /-- A cache operation that changes no value, counted under wait-mask bit 9 (R261). -/
  | cacheOp
  /-- A launch record to be read and handed to the front end (R185), and where its status goes. -/
  | launch (loc : Loc) (dst : List Nat)
  /-- A barrier arrival held behind the warp's earlier accesses, with the warp's ordering count (R167, R171, R244, R329). -/
  | arrive (o : BarOp) (order : Nat)
  /-- An effect held in the gate in order with the stores (R329). -/
  | held (e : Held)
  deriving DecidableEq, Repr

/-- Where an outstanding item stands. -/
inductive PendStage where
  /-- In the store gate, or a load not yet performed. -/
  | waiting
  /-- Sent to another package, its response outstanding (R371): the sequence number of its request. -/
  | remote (seqs : List Nat)
  /-- A deterministic atomic queued at its home slice with its key (R245). -/
  | queued
  /-- It met a poisoned sector: the record with this die and TAG waits for its answer (R334). -/
  | poisoned (die : Nat) (tag : Word)
  deriving DecidableEq, Repr

/-- One outstanding item of a warp, in program order (R224, R329). -/
structure Pend where
  /-- The issue that produced it. -/
  num : Nat
  lane : Lane
  kind : PendKind
  stage : PendStage := .waiting
  /-- For a memory item, the virtual address (for records and information). -/
  va : Nat := 0
  pc : Word := 0
  hdr : Word := 0
  words : Word × Word := (0, 0)
  /-- The virtual addresses and operands of its lanes, for a fault that a target answers (R326, R373). -/
  ops : List (Lane × Nat × Nat) := []
  /-- The deterministic key of an atomic (R244). -/
  key : Nat × Nat × Nat := (0, 0, 0)
  /-- It was issued after an unresolved FENCE (R238). -/
  spec : Bool := false
  /-- Its scope, which selects where an atomic is performed (R231), and whether it bypasses L1 (R265). -/
  scope : Scope := .package
  bypass : Bool := false
  /-- A store whose conflict is tested as it is performed, of an issue that no fibre has completed yet: the issue counts when such a
  store is applied (R95, R223, R242). -/
  counts : Bool := false
  /-- The step at which it was issued: the place of a deterministic scratch access among its group's (R249), and of a held
  reduction among its fibre's (R246). -/
  seq : Nat := 0
  deriving DecidableEq, Repr

/-- An operand-log entry (R222, R326). TAG 0: it only holds causes that wait for their turn (R315, R373). -/
structure LogEntry where
  w0 : Word
  w1 : Word
  pc : Word
  hdr : Word
  mask : List Lane
  tag : Word := 0
  die : Nat := 0
  answered : Bool := false
  /-- Effective addresses by lane. -/
  addrs : List (Lane × DWord)
  /-- 16 bytes of operands by lane. -/
  data : List (Lane × Nat)
  /-- Destination entries by lane, as absolute entry numbers. -/
  dst : List (Lane × List Nat) := []
  num : Nat := 0
  /-- The first two fields of its deterministic key: the warp's ordering count at issue, and ρ (R244). -/
  order : Nat × Nat := (0, 0)
  /-- Some fibre of the issue completed the access: it counts once when the entry is freed (R95, R223). -/
  acted : Bool := false
  deriving DecidableEq, Repr

/-! ## Tiles -/


/-- A tile register: control word, CFG, state, readers and packed image (R276 to R280). -/
structure Tile where
  ctl : Word := 0
  cfg : Bool := false
  state : TileState := .empty
  readers : Nat := 0
  image : NMap Byte := []
  /-- A named-tile cause that waits on the tile, with its reason (R315, R327). -/
  cause : Option (BitVec 8 × Nat) := none
  /-- The lane of the NAME.GET whose fill is under way: it takes the fill's cause (R381). -/
  lane : Lane := 0
  deriving DecidableEq, Repr

/-! ## Warps -/

/-- A core's steering tables (R139, R140): the live ALU lanes in order, for normal mode; and the lane pairs, primary and
shadow, for protected mode. -/
structure Steering where
  lanes : List Nat
  pairs : List (Nat × Nat)
  deriving DecidableEq, Repr

/-- What a warp waits in, inside an instruction whose own rule resumes the wait (R56). -/
inductive Waiting where
  | none
  /-- A barrier Wait on the barrier with this operand and arrival parity (R166). -/
  | barrier (o : BarOp)
  | grow (a : Nat)
  /-- STEP, counted (R192). -/
  | step
  | icinv (scope : Scope) (pages : List Nat)
  deriving DecidableEq, Repr

/-- The set chosen by R144, kept while its instruction waits (R145). -/
structure Sel where
  /-- The set as chosen, for C and Q. -/
  chosen : List Lane
  /-- The lanes that have not left it by a trap. -/
  lanes : List Lane
  escort : Bool
  /-- The set was every fibre of the warp. -/
  all : Bool
  /-- Its instruction waits on an operand (R19, R20), where the warp may be pre-empted (R56). -/
  blocked : Bool := false
  deriving DecidableEq, Repr

/-- The part of a warp that a rollback restores (R238, R240, R330). -/
structure WarpArch where
  slots : NMap Fibre := []
  sregs : NMap Entry := []
  /-- The allocation A. -/
  alloc : Nat := 64
  c : Nat := 0
  q : List Lane := []
  serial : Bool := false
  retired : Nat := 0
  /-- How many fibres have quit in each lane: an item of one that has bears a lane number raised by 64 for each. The model's own. -/
  quits : NMap Nat := []
  deriving DecidableEq, Repr

/-- One record of the undo log: the state before issue `num` (R330). -/
structure Undo where
  num : Nat
  /-- The step at which it issued: which of two warps issued first. The model's own. -/
  step : Nat := 0
  before : WarpArch
  deriving DecidableEq, Repr

/-- An unresolved FENCE of a warp (R238, R239): the issue number after it, its scope and the marked lines. -/
structure Spec where
  num : Nat
  scope : Scope
  marks : List Nat := []
  deriving DecidableEq, Repr

/-- One warp (R135, R144, R178, R222, R276, R324). -/
structure Warp extends WarpArch where
  warpid : Nat
  /-- Issues so far: numbers the outstanding items and the undo records. The model's own. -/
  issues : Nat := 0
  sel : Option Sel := none
  /-- Wait-mask conditions that the entered clause still waits for (R53). -/
  mask : BitVec 15 := 0
  waiting : Waiting := .none
  /-- The warp's wait has been met, so its instruction completes (barrier completion, grant, step boundary, ICINV). -/
  released : Bool := false
  lift : Nat := 0
  arrived : BitVec 48 := 0
  apar : BitVec 48 := 0
  dropped : BitVec 48 := 0
  /-- The operand log (R222): four entries, none where free. -/
  log : NMap LogEntry := []
  pend : List Pend := []
  undo : List Undo := []
  spec : Option Spec := none
  tiles : NMap Tile := []
  /-- The steering table the warp issues on, while it has not adopted its core's new one (R142). -/
  oldSteering : Option Steering := none
  /-- The service record that the whole warp waits on (R316): die and TAG. -/
  parked : Option (Nat × Word) := none
  /-- It passed the turn before a header whose YIELD bit is 1, and enters it when it next holds the turn (R151). -/
  yielded : Bool := false
  /-- The warp stops at its next pre-emption point (R321, R348). -/
  stopMark : Bool := false
  /-- It has stopped at such a point, until its group leaves or need not leave. -/
  stopped : Bool := false
  /-- The warp is marked for shedding but its deadline has not passed (R348). -/
  shedMark : Bool := false
  /-- The clause held in the loop buffer for this warp (R54): its header address and words. -/
  loop : Option (Word × List Word) := none
  /-- In protected mode, an injected mismatch at its next compared access (R337): how often the instruction there has met one
  already (R332). -/
  mismatches : Option Nat := none
  ended : Bool := false
  deriving DecidableEq, Repr

/-! ## Launches and groups -/

/-- The fields of a launch record (R175). -/
structure LaunchRec where
  codebase : DWord := 0
  entry : Word := 0
  handler : Word := 0
  flags : Word := 0
  lid : Word := 0
  gridx : Nat := 1
  gridy : Nat := 1
  gridz : Nat := 1
  warps : Nat := 1
  gang : Nat := 1
  regs : Nat := 64
  accs : Nat := 0
  cls : Nat := 1
  scratch : Nat := 0
  tiles : Nat := 0
  mindies : Nat := 1
  maxdies : Nat := 1
  lifetime : Nat := 0
  seed : DWord := 0
  pred : List Word := []
  fmt : List Word := []
  param : DWord := 0
  fibres : Nat := 0
  reserved : Nat := 0
  done : DWord := 0
  deriving DecidableEq, Repr

/-- Where a launch stands between acceptance and its finish (R182 to R185). -/
inductive LaunchStage where
  /-- Accepted, at the head of a host queue (0 to 15) or in the device queue (16), not started. -/
  | accepted (queue : Nat)
  /-- Started: its die set is chosen; placement may still run. -/
  | running
  deriving DecidableEq, Repr

/-- A launch that is queued, waiting or running (R175 to R184, R192, R241). -/
structure Launch where
  record : LaunchRec
  root : Nat
  queue : Nat := 0
  stage : LaunchStage := .running
  dies : List Nat := []
  /-- Gangs placed for the first time so far (R184). -/
  placed : Nat := 0
  groupsEnded : Nat := 0
  /-- The lowest G that ended fatally, with its cause (R180). -/
  failed : Option (Nat × BitVec 8) := none
  stepNo : Word := 0
  /-- The step of the run at which it started: the order of placement (R184). -/
  started : Nat := 0
  stepNext : Word := 0
  /-- The phase of a DET launch (R241). -/
  phase : Nat := 0
  /-- Its own package's share of a domain launch: packages, root and the warps on the other packages (R376). -/
  domainPackages : Nat := 1
  domainRoot : Nat := 0
  domainOthers : Nat := 0
  /-- Device-queue position: the launch stands in the device queue (R185). -/
  inDevice : Bool := false
  /-- A group of it was shed or swapped out with the whole launch: it is placed again whole or not at all (R184, R348). -/
  whole : Bool := true
  /-- At its next placement as a whole its groups take new home dies (an elastic step, a restore), and the die barriers the
  default E of the new membership (an elastic step) (R173, R193). -/
  rehome : Bool := false
  rebase : Bool := false
  /-- The dies whose barriers the groups that have ended belong to: membership is fixed when the launch is placed (R164). -/
  homes : NMap Nat := []
  deriving DecidableEq, Repr

/-- A slot of the accumulator ring (R282): its state and 64 x 64 FP32 elements, by byte offset / 4. -/
inductive RingState where
  | free | opened | full | draining
  deriving DecidableEq, Repr

structure RingSlot where
  state : RingState := .free
  elems : NMap Word := []
  deriving DecidableEq, Repr

/-- A barrier instance (R164, R166). -/
structure Barrier where
  e : Nat := 0
  count : Nat := 0
  parity : Bool := false
  engines : Nat := 0
  /-- The greatest ordering count that an arrival of this phase held (R244). -/
  top : Nat := 0
  deriving DecidableEq, Repr

/-! ## The issue in hand and the choice of who moves next (the model's own fields) -/

/-- The instruction being issued: its warp, its set, and the word's place (R144). -/
structure Issue where
  key : WarpKey
  sel : Sel
  pc : Word
  hdr : Word
  /-- Words in the instruction. -/
  len : Nat
  w0 : Word
  w1 : Word
  deriving DecidableEq, Repr

/-- Who moves next: a warp, or one of the part's other agents with what it does. -/
inductive Turn where
  | warp (k : WarpKey)
  | event (i : Instr)
  deriving DecidableEq, Repr

/-! ## Cores -/

/-- A cached copy of an instruction word in a core (R263): by launch root and virtual byte address. -/
structure CodeCopy where
  root : Nat
  va : Nat
  word : Word
  deriving DecidableEq, Repr

/-- A resting entry of a core's combining buffer (R233, R258): the word it updates, the merged operand, and who contributed,
the first contribution's warp first. -/
structure CombEntry where
  /-- Package-local address, aligned to the element. -/
  pa : Nat
  /-- The virtual address of the first contribution, aligned likewise. -/
  va : Nat
  op : AtomOp
  ty : AtomType
  scope : Scope
  /-- Which halves of a pair the entry updates: 1 `.lo`, 2 `.hi`, 3 both or a whole element. -/
  halves : Nat
  x : DWord
  contributors : List WarpKey
  /-- A flush found the sector poisoned and is held with this record, by die and TAG (R334). -/
  held : Option (Nat × Word) := none
  deriving DecidableEq, Repr

/-- A registered range (R234): a bounding box of virtual bytes under a root, or of scratch bytes of a group. -/
inductive LockBox where
  | mem (root lo hi : Nat)
  | scr (g : GroupKey) (lo hi : Nat)
  deriving DecidableEq, Repr

structure RangeLock where
  cmd : Nat
  box : LockBox
  write : Bool
  deriving DecidableEq, Repr

/-- The parameter block of an engine command (R296), and its 64 bytes as one number. -/
structure Params where
  energy : Nat
  peak : Nat
  bv : Bool
  bidx : Nat
  gran : Nat
  misc : Nat
  bounds : List Nat
  s0 : List Int
  s1 : List Int
  addr0 : Nat
  addr1 : Nat
  raw : Nat
  deriving DecidableEq, Repr

/-- Where an engine command stands (R297 to R301, R310). -/
inductive CmdStage where
  /-- Issued, its issue not yet out of the store gate (R329). -/
  | gated
  /-- Issued or resumed, not admitted. -/
  | waiting
  | admitted
  /-- Stopped by a pre-emption, swap-out, retention or drain, to be admitted again on resumption. -/
  | paused
  /-- Stopped by a fault that the runtime services. -/
  | stopped
  /-- Ended, its cause not yet taken. -/
  | ended
  deriving DecidableEq, Repr

/-- An engine command (R293 to R310). -/
structure Command where
  num : Nat
  key : WarpKey
  /-- The logical lane of the issuing fibre (R293). -/
  lane : Lane
  pc : Word
  hdr : Word
  w0 : Word
  w1 : Word
  instr : Instr
  params : Params
  /-- The issuing fibre's generator at issue, for its RSR elements (R293, R304). -/
  gen : Word
  /-- The ring slot it accumulates into or consumes. -/
  slot : Nat := 0
  /-- Tiles whose read it raised, and the tile whose fill it raised. -/
  reads : List Nat := []
  fill : Option Nat := none
  stage : CmdStage := .waiting
  /-- Iterations completed and in O. -/
  done : Nat := 0
  /-- The engine fault record of R301, as its 24 bytes. -/
  fault : Nat := 0
  /-- The step at which it was issued: the order of a core's commands (R309, R310). -/
  seq : Nat := 0
  record : Option (Nat × Word) := none
  /-- What other packages have answered since its last stop point (R370): the bytes read there, by address; the iterations whose
  write there is performed; and the address at which it was refused or timed out. -/
  answers : List (Nat × List Byte) := []
  written : List Nat := []
  refused : Option Nat := none
  /-- The place among commands of one step, where a restore made them all (R327, R392). The model's own. -/
  rank : Nat := 0
  deriving DecidableEq, Repr

/-- Where a group stands (R184, R194, R321, R352). -/
inductive GroupPlace where
  | resident (core : Nat)
  /-- Swapped out: its image lies in the save pool at this address, with this length (R322). -/
  | saved (addr len : Nat)
  /-- Drained: its image lies in drain flash (R355, R356). -/
  | flash (offset len : Nat)
  /-- Held by the checkpoint engine between the read-out and the placement of R389, or adopted by a restore (R392). -/
  | image (bytes : List Byte)
  deriving DecidableEq, Repr

/-- A group (R164, R177, R194, R203, R282): its place, scratch, ring share and core barriers. -/
structure Group where
  place : GroupPlace
  scratch : NMap Byte := []
  head : Nat := 0
  tail : Nat := 0
  ring : NMap RingSlot := []
  bars : NMap Barrier := []
  /-- WARPIDs whose warps have ended. -/
  endedWarps : List Nat := []
  /-- The die whose barriers the group belongs to: where it stood when its launch was placed (R164). -/
  home : Nat := 0
  /-- A stop of the whole group is under way (R321). -/
  stopping : Bool := false
  /-- Its swap-out found too little room in the save pool and waits (R322). -/
  waitsRoom : Bool := false
  /-- Records of the group that wait for an answer: die and TAG (R319). -/
  records : List (Nat × Word) := []
  /-- It was swapped out for a slow service: it re-enters when its records are answered (R319). -/
  forService : Bool := false
  /-- It was swapped out to end a stall: it re-enters with its warps' requests of REG.GROW granted (R191). -/
  forStall : Bool := false
  /-- While it is out: the core it left, and its stopped commands with the range locks they keep (R299). -/
  lastCore : Nat := 0
  cmds : List Command := []
  locks : List RangeLock := []
  deriving DecidableEq, Repr

/-- A line copy in L1 with its lease (R228). -/
structure L1Line where
  wts : DWord
  rts : DWord
  owned : Bool
  deriving DecidableEq, Repr

/-- The core's double-ended queue (R186): the owner, and the items from top to bottom. -/
structure Deque where
  owner : Option Word := none
  items : List DWord := []
  deriving DecidableEq, Repr

/-- The units that injection made fail (R337): 0 lanes, 1 register banks, 2 SRAM banks, 3 matrix columns. -/
structure BadUnit where
  kind : Nat
  unit : Nat
  deriving DecidableEq, Repr

/-- A retirement (R335, R336): a unit of a core by kind (0 an ALU lane, 1 a register bank, 2 an SRAM bank, 3 a matrix column), or a
slice or channel of an interleave table. -/
inductive Retirement where
  | unit (core kind unit : Nat)
  | table (t : TableId) (u : Nat)
  deriving DecidableEq, Repr

/-- One core (R138, R186, R200, R228, R233, R234, R263, R297, R337, R338). An unlisted core is as after reset. -/
structure CoreState where
  roleLo : Word := 0
  roleHi : Word := 0
  refused : Bool := false
  /-- ALU lanes, register banks and matrix columns retired, as masks. -/
  retiredLanes : BitVec 32 := 0
  retiredBanks : BitVec 32 := 0
  retiredCols : BitVec 16 := 0
  /-- Units that injection made fail every self-check until they retire, and the column whose retirement is injected (R337). -/
  failing : List BadUnit := []
  /-- A column whose next residue check mismatches by injection (R337). -/
  badColumn : Option Nat := none
  /-- Live lane groups (R138, R351). -/
  liveGroups : BitVec 4 := 0xF
  deque : Deque := {}
  cmds : NMap Command := []
  locks : List RangeLock := []
  comb : List CombEntry := []
  pts : DWord := 0
  l1 : NMap L1Line := []
  code : List CodeCopy := []
  hints : KMap Word PwrHint := []
  /-- The warp that holds the turn, per deterministic launch, or the last holder when it passed the turn and no warp could
  issue (R151, R152). -/
  turn : KMap Word (Nat × Bool) := []
  /-- Horizons published, per deterministic launch (R245). -/
  horizon : KMap Word (Nat × Nat × Nat) := []
  deriving DecidableEq, Repr

/-! ## Dies -/

/-- A service or notice record (R316). -/
structure FaultRec where
  cause : Nat
  reason : Nat := 0
  flags : Nat := 0
  index : Nat := 0
  tag : Word := 0
  lid : Word := 0
  warp : Nat := 0
  mask : Nat := 0
  addr : Nat := 0
  pc : Word := 0
  hdr : Word := 0
  place : Nat := 0
  engrec : Nat := 0
  /-- Its subject is gone: it is still posted, and an answer to it is ignored (R316, R317). The model's own. -/
  stale : Bool := false
  deriving DecidableEq, Repr

/-- The fault queue of a die (R317): registers, records waiting for room, and records that await an answer. -/
structure FaultQueue where
  baseLo : Word := 0
  baseHi : Word := 0
  ctl : Word := 0
  prod : Word := 0
  cons : Word := 0
  cfgerr : Bool := false
  delay : Nat := 200
  rtag : Word := 0
  nextTag : Word := 1
  waiting : List FaultRec := []
  open_ : List FaultRec := []
  deriving DecidableEq, Repr

/-- A translation held by a die's TLB (R216, R218): one page under one root. -/
structure TlbEntry where
  root : Nat
  vpage : Nat
  ppage : Nat
  r : Bool
  w : Bool
  x : Bool
  deriving DecidableEq, Repr

/-- An entry of an interleave table that differs from the table's formula (R208). -/
structure Bucket where
  unit : Nat
  moving : Bool := false
  next : Nat := 0
  cursor : Nat := 0
  deriving DecidableEq, Repr

/-- An L2 line's timestamps (R228). -/
structure L2Line where
  wts : DWord := 0
  rts : DWord := 0
  deriving DecidableEq, Repr

/-- A held floating add reduction of a DET launch (R246): its word, its halves and operand, its identity and issue order, and the
address and die of the access that made it. -/
structure HeldRed where
  pa : Nat
  halves : Nat
  ty : AtomType
  x : DWord
  ident : Nat
  seq : Nat
  lid : Word
  va : Nat := 0
  die : Nat := 0
  /-- Its phase has ended, and poison keeps it from being applied (R334). -/
  due : Bool := false
  /-- The record that it waits on: die and TAG. -/
  held : Option (Nat × Word) := none
  deriving DecidableEq, Repr

/-- The tag of a word of a deterministic launch (R242): the storing identity and the partial bit. -/
structure DetTag where
  lid : Word
  phase : Nat
  ident : Nat
  part : Bool
  deriving DecidableEq, Repr

/-- One die (R207, R209, R211, R216, R317). -/
structure DieState where
  fq : FaultQueue := {}
  tlb : List TlbEntry := []
  slices : NMap Bucket := []
  channels : NMap Bucket := []
  slicesOut : List Nat := []
  channelsOut : List Nat := []
  slicesFailed : List Nat := []
  channelsFailed : List Nat := []
  deriving DecidableEq, Repr

/-! ## The launch front end and the translation block -/

/-- The registers of one host launch queue (R181, R214). -/
structure LaunchQueue where
  baseLo : Word := 0
  baseHi : Word := 0
  ctl : Word := 0
  prod : Word := 0
  cons : Word := 0
  cfgerr : Bool := false
  overrun : Bool := false
  rootLo : Word := 0
  rootHi : Word := 0
  /-- The launch whose record stands accepted at the head (R183). -/
  head : Option Word := none
  deriving DecidableEq, Repr

/-- A launch that has finished and whose completion word is still to be written (R180). -/
structure Finished where
  lid : Word
  root : Nat
  done : DWord
  state : Nat
  code : Nat
  deriving DecidableEq, Repr

/-- The launch front end (R180 to R185, R193, R243, R322, R349). -/
structure FrontEnd where
  queues : NMap LaunchQueue := []
  /-- Records appended by LAUNCH whose groups are not all placed, oldest first: their launches. -/
  device : List Word := []
  /-- The horizon published for the groups of a deterministic launch that are out or not yet placed (R245). -/
  horizon : KMap Word (Nat × Nat × Nat) := []
  /-- The last queue chosen in each class (R183). -/
  lastQueue : NMap Nat := []
  /-- Outcomes of finished or refused launches, the newest last: lid, state, code (R180). -/
  outcomes : List (Word × Nat × Nat) := []
  /-- Finished launches whose completion words wait for their writes to be visible, the oldest first (R180). -/
  finished : List Finished := []
  elid : Word := 0
  etgt : Nat := 0
  detLid : Word := 0
  /-- Conflict counts of running or remembered launches (R243). -/
  detCnt : KMap Word Nat := []
  spoolLo : Word := 0
  spoolHi : Word := 0
  spoolSz : Nat := 0
  /-- The last swap-out found too little room, and the pool has not changed since: its groups go on meanwhile (R322). -/
  poolFull : Bool := false
  swapLid : Word := 0
  violLid : Word := 0
  violCnt : KMap Word Nat := []
  dsetLid : Word := 0
  dsetN : Word := 0
  deriving DecidableEq, Repr

/-- The translation block (R220). -/
structure TlbiBlock where
  vaLo : Word := 0
  vaHi : Word := 0
  npg : Nat := 0
  busy : Bool := false
  err : Bool := false
  die : Nat := 0
  scope : Nat := 5
  allRoots : Bool := false
  root : Nat := 0
  gen : Word := 0
  /-- The root value that the invalidation in progress covers. -/
  rootValue : Nat := 0
  deriving DecidableEq, Repr

/-- Which barrier instance (R164): the launch, the scope, the instance among the launch's, and the index. -/
structure BarKey where
  lid : Word
  scope : Scope
  inst : Nat
  index : Nat
  deriving DecidableEq, Repr

/-! ## Clusters (R349, R350, R353, R354) -/

/-- One cluster's registers and flags. An unlisted cluster is as after reset. -/
structure Cluster where
  refill : Nat := 524288
  peak : Nat := 1500
  bal : Nat := 0
  debt : Nat := 0
  viol : Nat := 0
  blocked : Bool := false
  /-- The last core that had a command admitted (R350). -/
  lastCore : Nat := 31
  crLo : Word := 0
  crHi : Word := 0
  crSz : Nat := 0
  crMiss : Nat := 0
  retained : Bool := false
  /-- While it is retained: where each group's image lies in the save area, with its length (R352). -/
  saves : List (GroupKey × Nat × Nat) := []
  /-- The throttle stage that caused its entry, 0 when its warps could not issue; and the warps that could not, each with how many
  of its register entries were empty (R352, R354). -/
  cause : Nat := 0
  asleep : List (WarpKey × Nat) := []
  /-- An in-field test holds the cluster out of placement (R395). -/
  testing : Bool := false
  deriving DecidableEq, Repr

/-! ## The grid block (R340 to R348, R355 to R358) -/

structure Grid where
  stepEn : Bool := true
  curveEn : Bool := true
  linkLost : Bool := false
  backstop : Bool := false
  /-- Frames that lowered TARGET, whose 600 µs have not passed (R347). -/
  falls : Nat := 0
  unmet : Bool := false
  stage : Nat := 0
  sub : Nat := 0
  fnom : Nat := 50000
  dband : Nat := 20
  /-- BP0 to BP7. -/
  bp : List Word := [3700, 3700, 3700, 3700, 3700, 3700, 3700, 3700]
  pmax : Nat := 3700
  fsafe : Nat := 3700
  shedDl : Nat := 400
  rstGap : Nat := 10
  hyst : Nat := 50
  freq : Nat := 0
  vbus : Nat := 0
  stepId : Nat := 0
  stepCeil : Nat := 0xFFFF
  target : Nat := 3700
  pmeas : Nat := 0
  frameErr : Nat := 0
  /-- CFGERR was set and not yet cleared by writing 1 (R342, R343). -/
  cfgErr : Bool := false
  /-- STEPID of the last accepted step frame (R340). -/
  lastStep : Option Nat := none
  /-- Accepted step frames whose acknowledgement is not yet sent, with UNMET of a frame that STEPEN made ignored. -/
  acks : List (Nat × Bool) := []
  /-- SEQ of the next frame that the module sends (R340). -/
  ackSeq : Nat := 0
  /-- Intervals of 50 µs for which PMEAS has been at or below TARGET - HYST since the last engage or release (R346). -/
  quiet : Nat := 0
  drains : Nat := 0
  stale : Bool := false
  valid : Bool := false
  resumed : Bool := false
  /-- A drain was detected, and the device stops (R355). -/
  draining : Bool := false
  /-- The device is drained: only its memory's self-refresh runs (R355). -/
  drained : Bool := false
  deriving DecidableEq, Repr

/-! ## Fault injection (R337) -/

structure Inject where
  lid : Word := 0
  warp : Word := 0
  cntLo : Word := 0
  cntHi : Word := 0
  die : Nat := 0
  unit : Nat := 0
  event : Nat := 0
  err : Bool := false
  fired : Bool := false
  arm : Bool := false
  deriving DecidableEq, Repr

/-! ## Checkpoint and restore (R388 to R392) -/

structure Checkpoint where
  job : DWord := 0
  lid : Word := 0
  step : Word := 0
  buddy : Nat := 0
  busy : Bool := false
  /-- LOCAL, BUDDY and PEER of CKCTL, in [0], [1] and [2]. -/
  enables : BitVec 3 := 0
  arm : Bool := false
  /-- LOCALERR, BUDDYERR, PEERERR and DONE of CKSTAT. -/
  stat : BitVec 4 := 0
  abandoned : Bool := false
  localArea : DWord := 0
  remote : DWord := 0
  peer : DWord := 0
  regions : DWord := 0
  nreg : Nat := 0
  half : Nat := 0
  /-- The shards of the checkpoint whose copies are in progress, and the copies not yet finished. -/
  shards : List (List Byte) := []
  pending : List Nat := []
  /-- The step of those shards, and CKLOCAL, CKREMOTE, CKPEER and CKHALF as they stood. -/
  copyStep : Word := 0
  rsJob : DWord := 0
  rsSrc : Word := 0
  rsBusy : Bool := false
  rsStat : Word := 0
  rsStep : Word := 0
  deriving DecidableEq, Repr

/-! ## Boot and trust (R386, R387, R393 to R395) -/

structure Boot where
  err : Nat := 0
  errStage : Nat := 0
  winBase : DWord := 0
  /-- MEAS0 to MEAS7; an unlisted one is zero. -/
  meas : NMap (BitVec 512) := []
  mextBuf : BitVec 512 := 0
  atNonce : BitVec 256 := 0
  atSel : BitVec 8 := 0
  atBusy : Bool := false
  /-- The quote built from the registers as they stood at GO, until it appears (R394). -/
  building : List Byte := []
  quote : List Byte := []
  iftBase : DWord := 0
  iftLen : Word := 0
  iftDie : Nat := 0
  iftCluster : Nat := 0
  iftStat : Nat := 0
  /-- SHA-512 of the payload of the test in progress. -/
  iftDigest : List Byte := []
  /-- The boot stages that have run since module reset (R393). -/
  ran : List Nat := []
  deriving DecidableEq, Repr

/-! ## The router block and the names of the hub (R375, R377 to R382) -/


/-- A face (R377): a local consumer, or a package. -/
inductive Face where
  | consumer (k : WarpKey) (t : Nat)
  | package (n : Nat)
  deriving DecidableEq, Repr

/-- A tile on its way or in the tile store (R380): its ROWS and COLS word, slot bits, and packed image. -/
structure NamedTile where
  control : Word
  slot : Word
  image : List Byte
  deriving DecidableEq, Repr

/-- A stored tile, the least recently used first; `pins` are the local faces of swapped-out groups it waits for (R382). A copy that
a newer one replaced, or that a Retire dropped, stays for its pins only and is not served (R380, R383). -/
structure StoredTile where
  name : Name
  tile : NamedTile
  pins : List (WarpKey × Nat) := []
  served : Bool := true
  deriving DecidableEq, Repr

/-- A peer-fault ring (R374, R375). -/
structure PeerLog where
  lo : Word := 0
  hi : Word := 0
  ctl : Word := 0
  prod : Word := 0
  cons : Word := 0
  lost : Bool := false
  cfgerr : Bool := false
  deriving DecidableEq, Repr

/-- One entry of the name routing table (R375). -/
structure Route where
  tensor : Word := 0
  mask : Word := 0
  value : Word := 0
  ctl : Word := 0
  deriving DecidableEq, Repr

structure Router where
  rtimeout : Nat := 200
  nameRef : Nat := 0
  plog : PeerLog := {}
  nrt : NMap Route := []
  /-- The hub's own microsecond clock (R377). -/
  now : Nat := 0
  pit : KMap Name (List (Face × Nat)) := []
  store : List StoredTile := []
  /-- The retired-name table, the oldest first (R377). -/
  retiredNames : List Name := []
  /-- Package numbers of the domain that the fabric has no route to (R369, R378): set from outside the package
  (DESIGN CHOICE: none at reset, log entry 11). -/
  unreached : List Nat := []
  deriving DecidableEq, Repr

/-! ## Peer accesses (R370 to R374) -/

/-- A request of a flow that awaits its response (R371, R372): whose access it is, which unit, and what it asked. -/
structure PeerOut where
  seq : Nat
  key : WarpKey
  num : Nat
  lane : Lane
  part : Nat := 0
  kind : Nat
  pa : Nat
  /-- The epoch it was sent in. -/
  epoch : Bool := false
  /-- The engine command whose access it is; `num` is then the step that issued the command, and `part` the iteration (R370). -/
  cmd : Option Nat := none
  /-- For a request of an engine or of the hub: the root and the virtual page whose translation it used (R220). -/
  page : Option (Nat × Nat) := none
  deriving DecidableEq, Repr

/-- One flow of a core to a package: the sequence number and 1-bit epoch of its next request, and what is outstanding (R371,
R372). -/
structure Flow where
  seq : Nat := 0
  epoch : Bool := false
  open_ : List PeerOut := []
  deriving DecidableEq, Repr

/-- What a peer request asks of its target (R370, R373, R374): kind 0 a load of as many bytes as `data` has, 1 a store, 2 an
atomic, 3 a reduction, 4 a compare and swap of the two halves of `data`. -/
structure PeerAsk where
  kind : Nat
  addr : Nat
  op : AtomOp
  ty : AtomType
  data : List Byte
  /-- The next request of the flow belongs to the same run of an aggregated atomic (R232). -/
  more : Bool := false
  deriving DecidableEq, Repr

/-- One flow into this package: the epoch and sequence number it performs next, and the requests it holds (R371, R372). -/
structure InFlow where
  next : Nat := 0
  epoch : Bool := false
  held : NMap PeerAsk := []
  deriving DecidableEq, Repr

/-- What leaves the package, in order: to other packages, to the shelf, to the host. -/
inductive Msg where
  | request (dest core seq : Nat) (epoch : Bool) (ask : PeerAsk)
  | response (dest core seq : Nat) (epoch : Bool) (data : List Byte)
  | faultResponse (dest core seq : Nat) (epoch : Bool) (cause reason : Nat)
  | interest (dest : Nat) (n : Name) (life : Nat)
  | tile (dest : Nat) (n : Name) (t : NamedTile) (up : Bool)
  | ended (dest : Nat) (n : Name) (retired : Bool) (reason : Nat)
  | retire (dest : Nat) (n : Name)
  /-- An arrival for the root, with the member's ordering count (R244). -/
  | barrierArrive (dest : Nat) (lid : Word) (index order : Nat)
  | barrierSet (dest : Nat) (lid : Word) (index e : Nat)
  | barrierDrop (dest : Nat) (lid : Word) (index : Nat)
  /-- The root's completion, to every other package of the domain launch, with the greatest ordering count of the phase. -/
  | barrierComplete (lid : Word) (index order : Nat)
  | ack (bytes : List Byte)
  | vector (n : Nat)
  | management
  | shard (dest addr : Nat) (data : List Byte)
  | fileShard (addr : Nat) (data : List Byte)
  | quote (data : List Byte)
  | hostData (x : BitVec 128)
  deriving DecidableEq, Repr

/-- The host's attachment (R386): the bases of the three windows, the MSI-X table of 16 vectors, and their pending bits. The layout
of the table and of the base registers is PCI Express's own (PRESUMED, log entry 138); an unlisted entry is masked, as there. -/
structure HostPort where
  bases : List DWord := [0, 0, 0]
  table : NMap (BitVec 128) := []
  pending : BitVec 16 := 0
  deriving DecidableEq, Repr

/-! ## The package -/

/-- The state of one package and its module. -/
structure State where
  /-- Steps taken: the free values are applied to it. The model's own (DESIGN CHOICE, log entry 1). -/
  tick : Nat := 0
  /-- The value of `tick` at the last module reset: the cores' clocks count from there (R95). The model's own. -/
  resetTick : Nat := 0
  /-- Who moves next, the first first; when empty, `step` picks one of those that could. The model's own (DESIGN CHOICE, log
  entry 2). -/
  agenda : List Turn := []
  /-- The instruction being issued. The model's own (DESIGN CHOICE, log entry 2). -/
  issue : Option Issue := none
  /-- Package memory, near and far, by package-local address (R206): a byte not listed reads 0 (DESIGN CHOICE, log entry 13). -/
  mem : List Host.Cell := []
  /-- Poisoned 32-byte sectors, by address / 32, with the mask of bytes written since (R334). -/
  poison : NMap Nat := []
  /-- Timestamps of L2 lines, by line address (R228). -/
  lines : NMap L2Line := []
  /-- Word tags of deterministic launches, by address / 4 (R242). -/
  tags : NMap DetTag := []
  /-- Held floating reductions of deterministic launches (R246). -/
  heldReds : List HeldRed := []
  launches : KMap Word Launch := []
  groups : KMap GroupKey Group := []
  warps : KMap WarpKey Warp := []
  /-- Barriers of quad scope and wider (R164). -/
  bars : KMap BarKey Barrier := []
  cores : NMap CoreState := []
  dies : NMap DieState := []
  front : FrontEnd := {}
  tlbi : TlbiBlock := {}
  /-- The far-channel table (R207) and its channels out of service or failed. -/
  farTable : NMap Bucket := []
  farOut : List Nat := []
  farFailed : List Nat := []
  /-- Retirements that wait for the one that runs, the first first (R209, R335), and the last that began. -/
  retirements : List Retirement := []
  retiring : Option Retirement := none
  /-- The move of die 0's channels to their S2 places has begun (R212). -/
  movingToS2 : Bool := false
  /-- The next TAG, the waiting records and the rings belong to the dies; the Maar retirement map (R335): what retired or
  failed, as kind and place. -/
  retirementMap : List (Nat × Nat × Bool) := []
  /-- This package's number in the domain (R375). -/
  domid : Nat := 0
  /-- The service level in force: 0, 1 or 2 (R5). -/
  level : Nat := 0
  /-- Does the package stand on a module (R1)? At reset it does, the ordering code NC40-M; with false it is a bare NC40-P, which has
  no far memory, drain flash, stored charge or grid connector (DESIGN CHOICE, log entry 145). -/
  onModule : Bool := true
  clusters : NMap Cluster := []
  grid : Grid := {}
  inject : Inject := {}
  ck : Checkpoint := {}
  boot : Boot := {}
  router : Router := {}
  host : HostPort := {}
  /-- Flows out of this package, by (core, package), and into it, by (package, core). -/
  flows : KMap (Nat × Nat) Flow := []
  inflows : KMap (Nat × Nat) InFlow := []
  /-- Drain flash (R356): a byte not listed reads 0 (DESIGN CHOICE, log entry 14). -/
  flash : NMap Byte := []
  /-- What left the package, the newest last. -/
  out : List Msg := []
  deriving DecidableEq, Repr

/-- The machine right after module reset (R5, R95, R181, R200, R207, R220, R317): service level S0, nothing launched, memory
with nothing listed, every control register at its reset value. -/
def State.reset : State := {}

end Sys2Proof.Machine
end

