-- ==== Sys2Proof/Machine/Access.lean ====
section
/-! DEFINITION. Reading and writing the named parts of State: registers of a fibre and of a warp, warps, groups, launches,
cores and dies. Every register read and write goes through these. -/

namespace Sys2Proof.Machine

/-! ## Registers of a fibre -/

/-- Window entry `j` of the allocation (R12). -/
def Fibre.entry (f : Fibre) (j : Nat) : Entry := ngetD f.entries Entry.zero j
/-- Register v_r: the window entry WB + r (R14). -/
def Fibre.v (f : Fibre) (r : Reg) : Entry := f.entry (f.wb + r.val)
/-- The value of v_r. -/
def Fibre.val (f : Fibre) (r : Reg) : Word := (f.v r).val
/-- Register v_(r + i), for a pair or a quad (R31). -/
def Fibre.valAt (f : Fibre) (r : Reg) (i : Nat) : Word := (f.entry (f.wb + r.val + i)).val
/-- The 64-bit value of the pair at r (R31). -/
def Fibre.val64 (f : Fibre) (r : Reg) : DWord := pair64 (f.valAt r 0) (f.valAt r 1)
/-- Write an entry. -/
def Fibre.setEntry (f : Fibre) (j : Nat) (e : Entry) : Fibre := { f with entries := nsetD f.entries Entry.zero j e }
/-- Write v_r and mark it full (R18). -/
def Fibre.setV (f : Fibre) (r : Reg) (x : Word) : Fibre := f.setEntry (f.wb + r.val) ⟨x, true⟩
/-- Write the pair at r (R31, R78). -/
def Fibre.setV64 (f : Fibre) (r : Reg) (x : DWord) : Fibre :=
  (f.setEntry (f.wb + r.val) ⟨lo32 x, true⟩).setEntry (f.wb + r.val + 1) ⟨hi32 x, true⟩
/-- Mark an entry empty; what it held is kept for R315. -/
def Fibre.emptyEntry (f : Fibre) (j : Nat) : Fibre := f.setEntry j ⟨(f.entry j).val, false⟩
/-- Mark entries empty. -/
def Fibre.emptyEntries (f : Fibre) (l : List Nat) : Fibre := l.foldl Fibre.emptyEntry f
/-- Mark an entry full again with what it held (R315). -/
def Fibre.refill (f : Fibre) (j : Nat) : Fibre := f.setEntry j ⟨(f.entry j).val, true⟩
/-- Entries that a producer overwrites are no longer lost (R334). -/
def Fibre.found (f : Fibre) (l : List (Nat × Word)) : Fibre :=
  { f with lost := f.lost.filter (fun j => !(l.any (fun e => e.1 == j))) }
/-- Write entries and mark them full (R18). -/
def Fibre.fillEntries (f : Fibre) (l : List (Nat × Word)) : Fibre :=
  l.foldl (fun f e => f.setEntry e.1 ⟨e.2, true⟩) (f.found l)
/-- The absolute numbers of n entries from v_r. -/
def Fibre.entriesFrom (f : Fibre) (r : Reg) (n : Nat) : List Nat := (List.range n).map (fun i => f.wb + r.val + i)

/-- Predicate p; 7 is pt, which reads 1 (R15). -/
def Fibre.pred (f : Fibre) (p : Pred) : Bool := if p.val = 7 then true else f.preds.getLsbD p.val
/-- Write predicate p; a write to pt is discarded (R15). -/
def Fibre.setPred (f : Fibre) (p : Pred) (b : Bool) : Fibre :=
  if p.val = 7 then f
  else { f with preds := if b then f.preds ||| BitVec.ofNat 7 (2 ^ p.val) else f.preds &&& ~~~(BitVec.ofNat 7 (2 ^ p.val)) }
/-- The guard of an instruction word (R17). -/
def guardHolds (g : Guard) (f : Fibre) : Bool := f.pred g.pred != g.sense

/-! ## The parts of a warp -/

def Warp.fibre? (w : Warp) (l : Lane) : Option Fibre := nget? w.slots l
def Warp.setFibre (w : Warp) (l : Lane) (f : Fibre) : Warp := { w with slots := nput w.slots l f }
def Warp.dropFibre (w : Warp) (l : Lane) : Warp := { w with slots := ndel w.slots l }
/-- Change the fibres of the given lanes. -/
def Warp.mapLanes (w : Warp) (ls : List Lane) (fn : Lane → Fibre → Fibre) : Warp :=
  { w with slots := nmap (fun l f => if ls.contains l then fn l f else f) w.slots }
/-- The lanes that hold a fibre, ascending. -/
def Warp.live (w : Warp) : List Lane := w.slots.map (·.1)
/-- Register s_r with its full/empty bit (R21). -/
def Warp.s (w : Warp) (r : Reg) : Entry := ngetD w.sregs Entry.zero r.val
def Warp.sval (w : Warp) (r : Reg) : Word := (w.s r).val
/-- Register s_(r + i). -/
def Warp.svalAt (w : Warp) (r : Reg) (i : Nat) : Word := (ngetD w.sregs Entry.zero (r.val + i)).val
def Warp.sval64 (w : Warp) (r : Reg) : DWord := pair64 (w.svalAt r 0) (w.svalAt r 1)
def Warp.setS (w : Warp) (r : Nat) (x : Word) : Warp := { w with sregs := nsetD w.sregs Entry.zero r ⟨x, true⟩ }
def Warp.setS64 (w : Warp) (r : Nat) (x : DWord) : Warp := (w.setS r (lo32 x)).setS (r + 1) (hi32 x)
/-- A tile register of the warp (R276). -/
def Warp.tile (w : Warp) (t : Nat) : Tile := ngetD w.tiles {} t
def Warp.setTile (w : Warp) (t : Nat) (x : Tile) : Warp := { w with tiles := nsetD w.tiles {} t x }

/-- A completion that is not part of an issue changes the fibre of a lane now and in every undo record of a later issue
than the one it completes (R330): a rollback does not undo it. -/
def Warp.complete (w : Warp) (num : Nat) (l : Lane) (fn : Fibre → Fibre) : Warp :=
  { w with
    slots := nmap (fun k f => if k = l then fn f else f) w.slots
    undo := w.undo.map fun u =>
      if num < u.num then
        { u with before := { u.before with slots := nmap (fun k f => if k = l then fn f else f) u.before.slots } }
      else u }

/-! ## The parts of the state -/

def State.warp? (s : State) (k : WarpKey) : Option Warp := kget? s.warps k
def State.setWarp (s : State) (k : WarpKey) (w : Warp) : State := { s with warps := kput s.warps k w }
/-- Change a warp if it exists. -/
def State.modWarp (s : State) (k : WarpKey) (fn : Warp → Warp) : State :=
  match s.warp? k with
  | some w => s.setWarp k (fn w)
  | none => s
def State.fibre? (s : State) (k : WarpKey) (l : Lane) : Option Fibre := (s.warp? k).bind (·.fibre? l)
/-- Change a fibre if it exists. -/
def State.modFibre (s : State) (k : WarpKey) (l : Lane) (fn : Fibre → Fibre) : State :=
  s.modWarp k (·.mapLanes [l] (fun _ f => fn f))
def State.group? (s : State) (k : GroupKey) : Option Group := kget? s.groups k
def State.setGroup (s : State) (k : GroupKey) (g : Group) : State := { s with groups := kput s.groups k g }
def State.modGroup (s : State) (k : GroupKey) (fn : Group → Group) : State :=
  match s.group? k with
  | some g => s.setGroup k (fn g)
  | none => s
def State.launch? (s : State) (lid : Word) : Option Launch := kget? s.launches lid
def State.setLaunch (s : State) (lid : Word) (l : Launch) : State := { s with launches := kput s.launches lid l }
def State.modLaunch (s : State) (lid : Word) (fn : Launch → Launch) : State :=
  match s.launch? lid with
  | some l => s.setLaunch lid (fn l)
  | none => s
def State.core (s : State) (c : Nat) : CoreState := ngetD s.cores {} c
def State.setCore (s : State) (c : Nat) (x : CoreState) : State := { s with cores := nsetD s.cores {} c x }
def State.modCore (s : State) (c : Nat) (fn : CoreState → CoreState) : State := s.setCore c (fn (s.core c))
def State.die (s : State) (d : Nat) : DieState := ngetD s.dies {} d
def State.setDie (s : State) (d : Nat) (x : DieState) : State := { s with dies := nsetD s.dies {} d x }
def State.modDie (s : State) (d : Nat) (fn : DieState → DieState) : State := s.setDie d (fn (s.die d))

/-- A drain is under way or done (R355). -/
def Grid.down (g : Grid) : Bool := g.draining || g.drained

/-! ## Places: cores are numbered 384 x die + 32 x cluster + core (R149) -/

def coresPerDie : Nat := 384
def dieOf (c : Nat) : Nat := c / 384
/-- A cluster's number among the 48 of the package. -/
def clusterOf (c : Nat) : Nat := c / 32
def quadOf (c : Nat) : Nat := c / 4
/-- The layout of CORENUM (R94). -/
def placeWord (c : Nat) : Nat := dieOf c * 2 ^ 30 + clusterOf c % 12 * 2 ^ 24 + c % 32

/-! ## Launch flags and sizes (R175, R176) -/

def Launch.flag (l : Launch) (i : Nat) : Bool := l.record.flags.getLsbD i
def Launch.det (l : Launch) : Bool := l.flag 0
def Launch.prot (l : Launch) : Bool := l.flag 1
def Launch.cores (l : Launch) : Bool := l.flag 2
def Launch.elastic (l : Launch) : Bool := l.flag 3
def Launch.detcnf (l : Launch) : Bool := l.flag 4
def Launch.widebar (l : Launch) : Bool := l.flag 5
def Launch.hdlr (l : Launch) : Bool := l.flag 6
/-- W: 64, or 32 in protected mode. -/
def Launch.width (l : Launch) : Nat := if l.prot then 32 else 64
def LaunchRec.groups (r : LaunchRec) : Nat := r.gridx * r.gridy * r.gridz
/-- The number of warps of the launch, NL of R244. -/
def LaunchRec.totalWarps (r : LaunchRec) : Nat := r.groups * r.warps
/-- A format slot of the launch (R289). -/
def Launch.slot (l : Launch) (i : Nat) : Word := l.record.fmt.getD i 0

/-- The linear group index of a logical warp (R136). -/
def groupIndex (l : Launch) (w : Nat) : Nat := w / l.record.warps
/-- The group of a warp. -/
def State.groupKey (s : State) (k : WarpKey) : GroupKey :=
  match s.launch? k.lid with
  | some l => ⟨k.lid, groupIndex l k.w⟩
  | none => ⟨k.lid, 0⟩
/-- The warps of a group. -/
def State.warpsOf (s : State) (g : GroupKey) : List WarpKey :=
  match s.launch? g.lid with
  | some l => (List.range l.record.warps).map (fun i => ⟨g.lid, g.g * l.record.warps + i⟩)
  | none => []
/-- The core on which a warp's group is resident. -/
def State.coreOf (s : State) (k : WarpKey) : Option Nat :=
  match s.group? (s.groupKey k) with
  | some g => (match g.place with
    | .resident c => some c
    | _ => none)
  | none => none
/-- The same, 0 when the group is not resident. -/
def State.coreNo (s : State) (k : WarpKey) : Nat := (s.coreOf k).getD 0
/-- A fibre's identity (R136). -/
def identity (k : WarpKey) (l : Lane) : Nat := k.w * 64 + l
/-- W of a warp's launch. -/
def State.widthOf (s : State) (k : WarpKey) : Nat := ((s.launch? k.lid).map (·.width)).getD 64
def State.isDet (s : State) (k : WarpKey) : Bool := ((s.launch? k.lid).map (·.det)).getD false
def State.isProt (s : State) (k : WarpKey) : Bool := ((s.launch? k.lid).map (·.prot)).getD false

end Sys2Proof.Machine
end

