-- ==== Sys2Proof/Machine/Rollback.lean ====
section
/-! DEFINITION. The undo log and rollback (R238, R240, R329 to R331). -/

namespace Sys2Proof.Machine

/-- Is an item an effect that the gate holds (R329)? -/
def Pend.isHeld (p : Pend) : Bool :=
  match p.kind with
  | .held _ => true
  | _ => false
/-- Does an item stand in the store gate (R329)? -/
def Pend.inGate (p : Pend) : Bool :=
  match p.kind, p.stage with
  | .store .., .waiting | .red .., .waiting | .atom .., .waiting | .launch .., .waiting => true
  | .store .., .poisoned .. | .red .., .poisoned .. | .atom .., .poisoned .. | .launch .., .poisoned .. => true
  | .arrive .., _ | .held _, _ => true
  | _, _ => false
/-- The held effects of the warp, oldest first. -/
def Warp.heldEffects (w : Warp) : List Held :=
  w.pend.filterMap (fun p => match p.kind with
    | .held e => some e
    | _ => none)
/-- Does a held effect act on a tile? An instruction that uses the tile depends on it (R329). -/
def Held.onTile (e : Held) (t : Nat) : Bool :=
  match e with
  | .tile u _ | .name (.pub u _) | .name (.get u ..) | .name (.drop u) => u == t
  | _ => false
def Warp.holdsTile (w : Warp) (ts : List Nat) : Bool := w.heldEffects.any (fun e => ts.any e.onTile)
/-- Does a held effect act on the warp's own barrier state or on E of a barrier? Another barrier instruction of the warp on it depends
on that (R329). -/
def Held.onBarrier (e : Held) (o : BarOp) : Bool :=
  match e with
  | .setE b _ | .dropOut b => b == o
  | _ => false
def Warp.holdsBarrier (w : Warp) (o : BarOp) : Bool := w.heldEffects.any (·.onBarrier o)

/-- Does an item belong to an issue at or after issue `n`? -/
def Pend.since (n : Nat) (p : Pend) : Bool := decide (n ≤ p.num)

/-- The part of a warp that a rollback restores, as it stands now. -/
def Warp.arch (w : Warp) : WarpArch := w.toWarpArch

/-- Change the lane numbers of an item. -/
def Pend.relane (p : Pend) (f : Lane → Lane) : Pend :=
  { p with
    lane := f p.lane
    ops := p.ops.map (fun o => (f o.1, o.2))
    kind := match p.kind with
      | .atom us d pr => .atom (us.map (fun u => { u with lane := f u.lane })) (d.map (fun e => (f e.1, e.2))) pr
      | .held (.deque a l) => .held (.deque a (l.map (fun e => (f e.1, e.2))))
      | k => k }
/-- An item outlives the discarding of the QUITs since a boundary: it belongs to its fibre again. -/
def Pend.requit (now before : NMap Nat) (p : Pend) : Pend :=
  p.relane (fun m => m - 64 * (ngetD now 0 (m % 64) - ngetD before 0 (m % 64)))
/-- Rollback to the issue boundary before issue `n` (R330): the recorded state of that boundary comes back, and what was
issued since and has not left the core (gated stores, outstanding loads, operand-log entries) is discarded. Without a
record of that boundary nothing is undone. The warp's waits since then end; fibres inside clauses fetch their clauses
again, as on any resumption (R56). -/
def Warp.rollback (w : Warp) (n : Nat) : Warp :=
  match w.undo.find? (fun u => u.num == n) with
  | none => w
  | some u =>
    { w with
      toWarpArch := { u.before with slots := nmap (fun _ f => { f with refetch := f.refetch || f.inside }) u.before.slots }
      sel := none
      mask := 0
      waiting := .none
      released := false
      pend := (w.pend.filter (fun p => !(p.since n))).map (·.requit w.quits u.before.quits)
      log := w.log.filter (fun e => decide (e.2.num < n))
      undo := w.undo.filter (fun v => decide (v.num < n))
      spec := (match w.spec with
        | some f => if n < f.num then none else some f
        | none => none)
      issues := n }

/-- Push the record of the issue that begins now (R330): the last 64, and under an unresolved FENCE every one since it. -/
def Warp.pushUndo (w : Warp) (step : Nat) (before : WarpArch) : Warp :=
  let l := ⟨w.issues, step, before⟩ :: w.undo
  let keep := match w.spec with
    | some f => max 64 (w.issues + 1 - f.num)
    | none => 64
  { w with undo := l.take keep }

/-- Records of issues that can no longer be rolled back are dropped: those up to the issue whose store or atomic has left
the gate (R329, R330). -/
def Warp.dropUndoTo (w : Warp) (n : Nat) : Warp := { w with undo := w.undo.filter (fun u => decide (n < u.num)) }

/-- An effect has left the core as its instruction issued (R242, R336): nothing before it is rolled back any more. -/
def Warp.commit (w : Warp) : Warp := { w with undo := [] }

/-- Rollback of a speculative warp to just after its FENCE (R240): its marks are cleared, and it stays speculative. -/
def Warp.specRollback (w : Warp) : Warp :=
  match w.spec with
  | none => w
  | some f => { (if w.issues = f.num then w else w.rollback f.num) with spec := some { f with marks := [] } }

/-- A write to the lines from `lo` to `hi` recalls the marks of every speculative warp that read one of them (R239, R240). -/
def State.recallMarks (s : State) (lo hi : Nat) : State :=
  { s with warps := s.warps.map fun e =>
      match e.2.spec with
      | some f => if f.marks.any (fun x => decide (lo ≤ x ∧ x ≤ hi)) then (e.1, e.2.specRollback) else e
      | none => e }

end Sys2Proof.Machine
end

