-- ==== Sys2Proof/Machine/Mem.lean ====
section
/-! DEFINITION. Package memory by bytes: the physical map (R206), reading and writing, poison (R334), line timestamps
(R228), and scratch (R203). -/

namespace Sys2Proof.Machine

/-- What a package-local address is (R206). -/
inductive Region where
  | near (die : Nat) | far | control | hole
  deriving DecidableEq, Repr

/-- The physical map of a module at a service level (R5, R206, R212): at S0 no memory is backed, and at S1 only half of die 0's near
memory. -/
def regionAt (level a : Nat) : Region :=
  if a < 0x04000000000 then
    (if level = 2 ∨ (level = 1 ∧ a < 0x00800000000) then .near (a / 0x01000000000) else .hole)
  else if 0x10000000000 ≤ a ∧ a < 0x20000000000 then (if level = 2 then .far else .hole)
  else if 0x70000000000 ≤ a ∧ a < 0x80000000000 then .control
  else .hole

/-- The package's own map (R206): without a module a hole takes the place of far memory. -/
def State.region (s : State) (a : Nat) : Region :=
  match regionAt s.level a with
  | .far => if s.onModule then .far else .hole
  | r => r

/-- The package-local part of a domain physical address (R206). -/
def localOf (pa : Nat) : Nat := pa % 2 ^ 43
/-- The package number of a domain physical address (R206). -/
def packageOf (pa : Nat) : Nat := pa / 2 ^ 43 % 2 ^ 13

/-- What a byte of memory that nothing has written reads as. -/
def freshByte : Byte := 0

/-- Read one byte of package memory. -/
def memByte (m : List Host.Cell) (a : Nat) : Byte := ngetD m freshByte a
/-- Write one byte, keeping the canonical form. -/
def memSetByte (m : List Host.Cell) (a : Nat) (b : Byte) : List Host.Cell := nsetD m freshByte a b
/-- Read n bytes upward from a. -/
def memBytes (m : List Host.Cell) (a : Nat) : Nat → List Byte
  | 0 => []
  | n + 1 => memByte m a :: memBytes m (a + 1) n
/-- Write bytes upward from a. -/
def memSetBytes (m : List Host.Cell) (a : Nat) : List Byte → List Host.Cell
  | [] => m
  | b :: l => memSetBytes (memSetByte m a b) (a + 1) l
/-- The canonical form of memory: addresses strictly rising, no entry equal to a fresh byte. -/
abbrev Memory.wf (m : List Host.Cell) : Bool := ncanon freshByte m

/-- The little-endian value of n bytes of memory (R128). -/
def State.memVal (s : State) (a n : Nat) : Nat := ofBytes (memBytes s.mem a n)

/-! ## Poison (R334) -/

def sectorOf (a : Nat) : Nat := a / 32
/-- Does a range of bytes meet a poisoned sector? -/
def State.poisoned (s : State) (a n : Nat) : Bool :=
  (List.range (sectorOf (a + n - 1) - sectorOf a + 1)).any (fun i => (nget? s.poison (sectorOf a + i)).isSome)
/-- Poison the sector of an address. -/
def State.poisonSector (s : State) (a : Nat) : State :=
  if (nget? s.poison (sectorOf a)).isSome then s else { s with poison := nput s.poison (sectorOf a) 0 }
/-- A plain write of one byte adds it to its poisoned sector's set; the poison clears when the set holds all 32. -/
def poisonByte (p : NMap Nat) (a : Nat) : NMap Nat :=
  match nget? p (sectorOf a) with
  | none => p
  | some m =>
    let m' := m ||| 2 ^ (a % 32)
    if m' = 2 ^ 32 - 1 then ndel p (sectorOf a) else nput p (sectorOf a) m'
/-- The same for n bytes upward. -/
def poisonBytes (p : NMap Nat) (a : Nat) : Nat → NMap Nat
  | 0 => p
  | n + 1 => poisonBytes (poisonByte p a) (a + 1) n

/-! ## Timestamps (R228) -/

def lineOf (a : Nat) : Nat := a / 128

/-- Does a core's L1 hold a copy of a line? -/
def CoreState.holdsLine (k : CoreState) (line : Nat) : Bool := (nget? k.l1 line).isSome
/-- The role of an SRAM bank (R200). -/
def CoreState.role (k : CoreState) (b : Nat) : Nat :=
  (if b < 16 then k.roleLo.toNat / 4 ^ b else k.roleHi.toNat / 4 ^ (b - 16)) % 4
/-- The number of banks with a role. -/
def CoreState.banks (k : CoreState) (role : Nat) : Nat := (List.range 32).countP (fun b => k.role b == role)
/-- Does an access of the core bypass L1: by its policy, or because the core has no L1 bank (R202, R265)? -/
def CoreState.bypasses (k : CoreState) (policy : Bool) : Bool := policy || k.banks 0 == 0
def CoreState.dropLine (k : CoreState) (line : Nat) : CoreState := { k with l1 := ndel k.l1 line }
/-- The copy is owned no longer: another core reads the line at its home slice. -/
def CoreState.shareLine (k : CoreState) (line : Nat) : CoreState :=
  match nget? k.l1 line with
  | some x => { k with l1 := nput k.l1 line { x with owned := false } }
  | none => k
/-- Change every core but one that holds a copy of a line; `none` spares none. -/
def State.eachHolder (s : State) (line : Nat) (but : Option Nat) (fn : CoreState → CoreState) : State :=
  (s.cores.filter (fun e => e.2.holdsLine line && some e.1 != but)).foldl (fun s e => s.modCore e.1 fn) s
/-- The home slice recalls the copies of a line from every core but one (R229): it does so for every write to the line (DESIGN
CHOICE, log entry 124: a recall at the slice's own choice affects only time). -/
def State.recallLine (s : State) (line : Nat) (but : Option Nat) : State := s.eachHolder line but (·.dropLine line)

/-- The later of two times (R228). -/
def laterOf (a b : DWord) : DWord := if a.toNat < b.toNat then b else a
/-- The free length d of a lease, at least 1 (R228). -/
def State.leaseTime (s : State) : DWord := BitVec.ofNat 64 (1 + Config.leaseLength s.tick % (2 ^ 64 - 1))
/-- The lease that the home slice gives a load whose core's clock stands at `pts` (R228). -/
def State.leaseLine (s : State) (pts : DWord) (line : Nat) : State :=
  let x := ngetD s.lines {} line
  let rts := laterOf x.rts (laterOf (x.wts + s.leaseTime) (pts + s.leaseTime))
  { s with lines := nsetD s.lines {} line { x with rts := rts } }
/-- The lease of a load of a core. -/
def State.leaseCore (s : State) (c line : Nat) : State := s.leaseLine (s.core c).pts line
/-- A load served at the home slice for another package, whose core's clock the request does not carry: the clock counts as the
line's write time (DESIGN CHOICE, log entry 148). -/
def State.leaseOutside (s : State) (line : Nat) : State :=
  (s.leaseLine (ngetD s.lines {} line).wts line).eachHolder line none (·.shareLine line)
/-- The core's L1 takes a copy of a line with its timestamps; no other core owns the line then. -/
def State.copyIn (s : State) (c line : Nat) : State :=
  let x := ngetD s.lines {} line
  (s.eachHolder line (some c) (·.shareLine line)).modCore c (fun k => { k with l1 := nput k.l1 line ⟨x.wts, x.rts, false⟩ })

/-- A load of a core: from its L1 copy while the copy's lease lasts, else at the home slice (R228). One that bypasses L1 is served
at the home slice and leaves no copy (R202, R265). -/
def State.stampLoad (s : State) (c a : Nat) (policy : Bool) : State :=
  let k := s.core c
  match nget? k.l1 (lineOf a) with
  | some x => if k.pts.toNat ≤ x.rts.toNat ∧ k.bypasses policy = false then s.setCore c { k with pts := laterOf k.pts x.wts } else home
  | none => home
where
  /-- Service at the home slice. -/
  home : State :=
    let s := s.leaseCore c (lineOf a)
    let s := if (s.core c).bypasses policy then s.eachHolder (lineOf a) none (·.shareLine (lineOf a)) else s.copyIn c (lineOf a)
    s.modCore c (fun k => { k with pts := laterOf k.pts (ngetD s.lines {} (lineOf a)).wts })

/-- A store or atomic of a core (R228): in its L1, which owns the line from then on, or at the home slice, which keeps no copy
in any L1 (R202, R231, R241, R265). -/
def State.stampStore (s : State) (c a : Nat) (home : Bool) : State :=
  let x := ngetD s.lines {} (lineOf a)
  let atHome := (s.core c).bypasses home
  let ts := laterOf (x.rts + 1) (s.core c).pts
  let s := ({ s with lines := nsetD s.lines {} (lineOf a) ⟨ts, ts⟩ } : State).recallLine (lineOf a) (if atHome then none else some c)
  s.modCore c (fun k => { k with pts := ts, l1 := if atHome then k.l1 else nput k.l1 (lineOf a) ⟨ts, ts, true⟩ })

/-- A write that comes from outside every core takes its place in O after every lease of the line, and no core keeps a copy
(R228). -/
def State.stampOutside (s : State) (line : Nat) : State :=
  let x := ngetD s.lines {} line
  ({ s with lines := nsetD s.lines {} line ⟨x.rts + 1, x.rts + 1⟩ } : State).recallLine line none

/-- The last line that n bytes from an address meet. -/
def lastLine (a n : Nat) : Nat := lineOf (a + n - 1)

/-- A plain write of bytes to package memory as a member of O: it recalls the marks on its lines (R239), writes, and counts
toward clearing poison (R334). -/
def State.writeMem (s : State) (a : Nat) (l : List Byte) : State :=
  let s := s.recallMarks (lineOf a) (lastLine a l.length)
  { s with mem := memSetBytes s.mem a l, poison := poisonBytes s.poison a l.length }

/-- The write half of an atomic or of a reduction flush: it does not count toward clearing poison (R334). -/
def State.writeAtomic (s : State) (a : Nat) (l : List Byte) : State :=
  let s := s.recallMarks (lineOf a) (lastLine a l.length)
  { s with mem := memSetBytes s.mem a l }

/-- A write of the front end, a hub or the host: a member of O from outside every core (R228). -/
def State.writeOutside (s : State) (a : Nat) (l : List Byte) : State :=
  ((List.range (lastLine a l.length + 1 - lineOf a)).foldl (fun s i => s.stampOutside (lineOf a + i)) s).writeMem a l

/-! ## Scratch (R203) -/

def Group.scratchBytes (g : Group) (off : Nat) : Nat → List Byte
  | 0 => []
  | n + 1 => ngetD g.scratch 0 off :: g.scratchBytes (off + 1) n
def Group.setScratch (g : Group) (off : Nat) : List Byte → Group
  | [] => g
  | b :: l => ({ g with scratch := nsetD g.scratch 0 off b } : Group).setScratch (off + 1) l
def State.scratchVal (s : State) (k : GroupKey) (off n : Nat) : Nat :=
  match s.group? k with
  | some g => ofBytes (g.scratchBytes off n)
  | none => 0

/-! ## One place, memory or scratch -/

def State.readLoc (s : State) (l : Loc) (n : Nat) : List Byte :=
  match l with
  | .mem pa => memBytes s.mem (localOf pa) n
  | .scr g off => ((s.group? g).map (·.scratchBytes off n)).getD (List.replicate n 0)
def State.writeLoc (s : State) (l : Loc) (b : List Byte) : State :=
  match l with
  | .mem pa => s.writeMem (localOf pa) b
  | .scr g off => s.modGroup g (·.setScratch off b)

end Sys2Proof.Machine
end

