-- ==== Sys2Proof/Machine/Interleave.lean ====
section
/-! DEFINITION. The interleave tables, the loss of a slice or channel, and evacuation (R207 to R212). They decide which unit
holds a line and never what an access returns (R210). -/

namespace Sys2Proof.Machine

/-- The bucket of a package-local address (R207). -/
def bucketOf (a : Nat) : Nat :=
  let l := a / 128
  (l % 4096) ^^^ (l / 2 ^ 12 % 4096) ^^^ (l / 2 ^ 24 % 4096)

/-- How many units a table names (R207). -/
def unitCount : TableId → Nat
  | .slice _ => 96
  | .channel _ => 64
  | .far => 32

/-- The entries of a table that differ from its formula. -/
def State.table (s : State) : TableId → NMap Bucket
  | .slice d => (s.die d.val).slices
  | .channel d => (s.die d.val).channels
  | .far => s.farTable
def State.setTable (s : State) (t : TableId) (m : NMap Bucket) : State :=
  match t with
  | .slice d => s.modDie d.val (fun x => { x with slices := m })
  | .channel d => s.modDie d.val (fun x => { x with channels := m })
  | .far => { s with farTable := m }
/-- Units of a table out of service. -/
def State.unitsOut (s : State) : TableId → List Nat
  | .slice d => (s.die d.val).slicesOut
  | .channel d => (s.die d.val).channelsOut
  | .far => s.farOut
def State.setUnitsOut (s : State) (t : TableId) (l : List Nat) : State :=
  match t with
  | .slice d => s.modDie d.val (fun x => { x with slicesOut := l })
  | .channel d => s.modDie d.val (fun x => { x with channelsOut := l })
  | .far => { s with farOut := l }
/-- Units of a table that failed without retiring (R211). -/
def State.unitsFailed (s : State) : TableId → List Nat
  | .slice d => (s.die d.val).slicesFailed
  | .channel d => (s.die d.val).channelsFailed
  | .far => s.farFailed
def State.addFailed (s : State) (t : TableId) (u : Nat) : State :=
  match t with
  | .slice d => s.modDie d.val (fun x => { x with slicesFailed := u :: x.slicesFailed })
  | .channel d => s.modDie d.val (fun x => { x with channelsFailed := u :: x.channelsFailed })
  | .far => { s with farFailed := u :: s.farFailed }

/-- How many units share the buckets evenly: 32 channels of die 0 at S1, until the move to S2 (R212). -/
def State.spread (s : State) (t : TableId) : Nat :=
  match t with
  | .channel d => if s.level = 1 ∧ d.val = 0 then 32 else 64
  | t => unitCount t

/-- Entry `b` of a table (R207, R208). -/
def State.bucket (s : State) (t : TableId) (b : Nat) : Bucket :=
  (nget? (s.table t) b).getD { unit := b % s.spread t }

/-- A table entry as its 64-bit register (R208). -/
def Bucket.word (x : Bucket) : Nat :=
  (if x.moving then 2 ^ 63 else 0) + x.cursor % 2 ^ 36 * 2 ^ 20 + x.next % 256 * 2 ^ 8 + x.unit % 256

/-- The unit that holds the line of an address, of line number `l`, at this instant (R210): NEXT below CURSOR of a moving
bucket. The copy of a line is one step, so no access meets the line being copied. -/
def Bucket.home (x : Bucket) (l : Nat) : Nat := if x.moving ∧ l < x.cursor then x.next else x.unit

/-- The unit that a bucket counts for (R209). -/
def Bucket.counted (x : Bucket) : Nat := if x.moving then x.next else x.unit

/-- Bits [35:12] of the line addresses that belong to a table: a bucket has one line for each (R206, R207). -/
def lineBlocks : TableId → List (Nat × Nat)
  | .slice d => [(d.val * 2 ^ 17, 2 ^ 17), (2 ^ 21 + d.val * 2 ^ 19, 2 ^ 19)]
  | .channel d => [(d.val * 2 ^ 17, 2 ^ 17)]
  | .far => [(2 ^ 21, 2 ^ 21)]

/-- The line of a bucket in a block of lines. -/
def lineIn (b u : Nat) : Nat := u * 4096 + (b ^^^ (u % 4096) ^^^ (u / 4096 % 4096))

/-- The first line of a bucket (R209). -/
def firstLine (t : TableId) (b : Nat) : Nat :=
  match lineBlocks t with
  | (u, _) :: _ => lineIn b u
  | [] => 0

/-- The line of a bucket after a given line, if any. -/
def nextLine (t : TableId) (b cur : Nat) : Option Nat :=
  let u := cur / 4096
  (leastOf ((lineBlocks t).filterMap fun r =>
    if u < r.1 then some r.1 else if u + 1 < r.1 + r.2 then some (u + 1) else none)).map (lineIn b)

/-- The moving bucket with the lowest number: the one being evacuated (R209). -/
def State.evacuating (s : State) (t : TableId) : Option Nat :=
  ((s.table t).find? (fun e => e.2.moving)).map (·.1)

/-- The unit in service with the fewest buckets, the lowest on a tie. -/
def leastLoaded (counts : NMap Nat) (units : List Nat) : Nat :=
  (units.foldl (fun best u => match best with
    | none => some u
    | some v => if ngetD counts 0 u < ngetD counts 0 v then some u else some v) none).getD 0

/-- How many buckets each unit counts. -/
def State.loads (s : State) (t : TableId) : NMap Nat :=
  (List.range 4096).foldl (fun m b =>
    let u := (s.bucket t b).counted
    nput m u (ngetD m 0 u + 1)) []

/-- Is die 0 on its 32 channels of S1, with the move to S2 not begun (R212)? -/
def State.onS1 (s : State) (t : TableId) : Bool := decide (s.level = 1) && decide (t = .channel 0) && !s.movingToS2

/-- The units that may receive buckets (R209, R212). One that failed without retiring (R211) still serves its buckets and counts as in
service (DESIGN CHOICE, log entry 146). -/
def State.inService (s : State) (t : TableId) : List Nat :=
  (List.range (if s.onS1 t then 32 else unitCount t)).filter (fun u => !(s.unitsOut t).contains u)

/-- The units of buckets `bs`, taken in that order: each goes to the unit with the fewest buckets at that moment, and counts
for it from then on (R209). -/
def chooseUnits (units : List Nat) : NMap Nat → List Nat → List (Nat × Nat)
  | _, [] => []
  | counts, b :: bs =>
    let v := leastLoaded counts units
    (b, v) :: chooseUnits units (nput counts v (ngetD counts 0 v + 1)) bs

/-- Reassign the buckets of a unit that dropped out (R209). CURSOR of a bucket that waits for its turn to move is the bucket's
first line (DESIGN CHOICE, log entry 121). -/
def State.reassign (s : State) (t : TableId) (u : Nat) : State :=
  let s := s.setUnitsOut t (u :: s.unitsOut t)
  let mine := (List.range 4096).filter (fun b => (s.bucket t b).counted == u)
  s.setTable t ((chooseUnits (s.inService t) (s.loads t) mine).foldl (fun m e =>
    nput m e.1 { unit := (s.bucket t e.1).unit, moving := true, next := e.2, cursor := firstLine t e.1 }) (s.table t))

/-- A unit that the retirement map names is out of service from the start: its buckets stand at their new units and nothing is
evacuated (R209, R335). -/
def State.exclude (s : State) (t : TableId) (u : Nat) : State :=
  let s := s.reassign t u
  s.setTable t ((s.table t).map (fun e => (e.1, if e.2.moving then { unit := e.2.next } else e.2)))

/-- The channel table of die 0 as S1 begins (R212): channel b mod 32 for bucket b, and for the buckets of a channel that is
out of service the channel that R209 chooses. -/
def State.enterS1 (s : State) : State :=
  let t := TableId.channel 0
  let s := ({ s with level := 1 } : State).setTable t []
  let out := s.unitsOut t
  let lost := (List.range 4096).filter (fun b => out.contains (b % 32))
  s.setTable t ((chooseUnits (s.inService t) (s.loads t) lost).foldl (fun m e => nput m e.1 { unit := e.2 }) [])

/-- Copy one line of the bucket being evacuated (R210): the cursor moves on, and after the last line the bucket is at its
new unit. A line that the copy cannot correct arrives poisoned. -/
def State.copyLine (s : State) (t : TableId) (bad : Bool) : State :=
  match s.evacuating t with
  | none => s
  | some b =>
    let x := s.bucket t b
    let s := if bad then (List.range 4).foldl (fun s i => s.poisonSector (x.cursor * 128 + 32 * i)) s else s
    match nextLine t b x.cursor with
    | some l => s.setTable t (nput (s.table t) b { x with cursor := l })
    | none => s.setTable t (nput (s.table t) b { unit := x.next })

/-- Does a bucket of die 0 stay at S2 on a channel that failed at S1 without retiring: it stands there, and R207 does not place it
on channels 32 to 63 (R212)? -/
def State.staysFailed (s : State) (b : Nat) : Bool :=
  decide (b % 64 < 32) && (s.unitsFailed (.channel 0)).contains (s.bucket (.channel 0) b).unit
/-- Where the buckets of die 0 go at S2 (R212): those of R207 on channels 32 to 63, and those whose channel under R207 is out
of service, each of which goes to the channel that R209 chooses beside the buckets that R207 places (DEDUCED, log entry 122). -/
def State.s2Goals (s : State) : List (Nat × Nat) :=
  let t := TableId.channel 0
  let out := s.unitsOut t
  let units := (List.range 64).filter (fun u => !out.contains u)
  let away := (List.range 4096).filter (fun b => out.contains (b % 64))
  let lost := away.filter (fun b => !s.staysFailed b)
  let stay := away.filter s.staysFailed
  ((List.range 4096).filter (fun b => decide (32 ≤ b % 64) && !out.contains (b % 64))).map (fun b => (b, b % 64)) ++
  chooseUnits units (units.map (fun u => (u, 64 + stay.countP (fun b => (s.bucket t b).unit == u)))) lost

/-- The move of die 0's buckets to their S2 channels (R212): a bucket that is at its channel already stays. -/
def State.startS2Move (s : State) : State :=
  let t := TableId.channel 0
  let m := s.s2Goals.foldl (fun m e =>
    let x := s.bucket t e.1
    nput m e.1 (if x.unit = e.2 then { unit := x.unit }
      else { unit := x.unit, moving := true, next := e.2, cursor := firstLine t e.1 })) (s.table t)
  { s.setTable t m with movingToS2 := true }

end Sys2Proof.Machine
end

