-- ==== Sys2Proof/Machine/Records.lean ====
section
/-! DEFINITION. Service, notice and fatal records of the die fault queues (R316, R317) and what a package sends out. -/

namespace Sys2Proof.Machine

/-- The MSI-X entry of a vector: 8 bytes of address, 4 of data, and the mask in bit 96 (R386; PRESUMED, log entry 138). -/
def HostPort.entry (h : HostPort) (i : Nat) : BitVec 128 := ngetD h.table (BitVec.ofNat 128 (2 ^ 96)) i
/-- A vector that is raised while its entry is masked is pending. -/
def HostPort.raise (h : HostPort) (m : Msg) : HostPort :=
  match m with
  | .vector n => if (h.entry n).getLsbD 96 then { h with pending := h.pending ||| BitVec.ofNat 16 (2 ^ n) } else h
  | _ => h
/-- A message leaves the package. -/
def State.send (s : State) (m : Msg) : State := { s with out := s.out ++ [m], host := s.host.raise m }

/-- FLAGS of a record (R316). -/
def flagLogged : Nat := 1
def flagEngine : Nat := 2
def flagFetch : Nat := 4
def flagFatal : Nat := 8
def flagNotice : Nat := 16
def flagFlush : Nat := 32

/-- The TAG after this one: 0 names no record (R316). -/
def nextTagOf (t : Word) : Word := if t + 1 = 0 then 1 else t + 1

/-- A record is found: it takes the die's next TAG and waits to be posted (R316). Answers the state and the TAG. -/
def State.record (s : State) (d : Nat) (r : FaultRec) : State × Word :=
  let q := (s.die d).fq
  (s.modDie d (fun x => { x with fq := { q with nextTag := nextTagOf q.nextTag, waiting := q.waiting ++ [{ r with tag := q.nextTag }] } }),
   q.nextTag)

/-- A record that nothing waits on. -/
def State.note (s : State) (d : Nat) (r : FaultRec) : State := (s.record d r).1

/-- The 64 bytes of a record (R316). -/
def FaultRec.bytes (r : FaultRec) : List Byte :=
  bytesOf 1 r.cause ++ bytesOf 1 r.reason ++ bytesOf 1 r.flags ++ bytesOf 1 r.index ++ bytesOf 4 r.tag.toNat ++
  bytesOf 4 r.lid.toNat ++ bytesOf 4 r.warp ++ bytesOf 8 r.mask ++ bytesOf 8 r.addr ++ bytesOf 4 r.pc.toNat ++
  bytesOf 4 r.hdr.toNat ++ bytesOf 4 r.place ++ bytesOf 4 0 ++ bytesOf 16 r.engrec

/-- The ring of records of a fault queue: its size, and whether a record finds room (R317). -/
def FaultQueue.size (q : FaultQueue) : Nat := 2 ^ (q.ctl.toNat % 32)
def FaultQueue.enabled (q : FaultQueue) : Bool := q.ctl.getLsbD 5
def FaultQueue.full (q : FaultQueue) : Bool := decide (q.size ≤ (q.prod - q.cons).toNat)
def FaultQueue.base (q : FaultQueue) : Nat := q.baseHi.toNat * 2 ^ 32 + q.baseLo.toNat

/-- Does a record await an answer? A notice and a fatal record await none (R316, R320), nor does one whose subject is gone. -/
def FaultRec.awaits (r : FaultRec) : Bool := r.flags / flagNotice % 2 == 0 && r.flags / flagFatal % 2 == 0 && !r.stale
/-- The subject of a record is gone: it awaits no answer any more, and if it is not posted yet it still will be, for no record is
ever lost (R316). -/
def FaultQueue.orphan (q : FaultQueue) (tag : Word) : FaultQueue :=
  { q with open_ := q.open_.filter (fun r => r.tag != tag)
           waiting := q.waiting.map (fun r => if r.tag = tag then { r with stale := true } else r) }
def State.orphan (s : State) (rs : List (Nat × Word)) : State :=
  rs.foldl (fun s x => s.modDie x.1 (fun d => { d with fq := d.fq.orphan x.2 })) s

/-- The oldest waiting record of a die is written to its ring, if the ring has room: PROD rises and vector 2 + d is raised
(R316, R317, R386). -/
def State.postRecord (s : State) (d : Nat) : State :=
  let q := (s.die d).fq
  match q.waiting with
  | [] => s
  | r :: rest =>
    if !q.enabled || q.full || s.grid.drained then s
    else
      let s := s.writeOutside (q.base + 64 * (q.prod.toNat % q.size)) r.bytes
      (s.modDie d (fun x => { x with fq :=
        { q with waiting := rest, prod := q.prod + 1, open_ := if r.awaits then q.open_ ++ [r] else q.open_ } })).send
        (.vector (2 + d))

/-- The lanes of a list as a mask. -/
def laneMask (l : List Lane) : Nat := maskOf l

end Sys2Proof.Machine
end

