-- ==== Sys2Proof/Machine/RegRead.lean ====
section
/-! DEFINITION. Reading the control region (R385): the value of every control register, and the access rules. Writing is in
Registers.lean. -/

namespace Sys2Proof.Machine

/-- A flag as a field at bit i. -/
def fieldBit (b : Bool) (i : Nat) : Nat := if b then 2 ^ i else 0

/-- Is a launch running, or among the outcomes remembered (R180, R243)? -/
def State.knowsLid (s : State) (lid : Word) : Bool :=
  (s.launch? lid).isSome || s.front.outcomes.any (fun o => o.1 == lid)

/-- The registers of a launch queue (R181, R214). -/
def LaunchQueue.reg (q : LaunchQueue) (off : Nat) : Nat :=
  match off with
  | 0x00 => q.baseLo.toNat | 0x04 => q.baseHi.toNat | 0x08 => q.ctl.toNat | 0x0C => q.prod.toNat | 0x10 => q.cons.toNat
  | 0x14 => fieldBit q.cfgerr 2 + fieldBit q.overrun 1 + fieldBit q.head.isSome 0
  | 0x18 => q.rootLo.toNat | 0x1C => q.rootHi.toNat | _ => 0

/-- The launch block (R181, R193, R214, R243, R322, R349, R376). -/
def State.launchReg (s : State) (off : Nat) : Nat :=
  if off < 0x400 then (ngetD s.front.queues {} (off / 0x40)).reg (off % 0x40)
  else match off with
    | 0x400 => s.front.elid.toNat
    | 0x404 => s.front.etgt
    | 0x408 => s.front.detLid.toNat
    | 0x40C => if s.knowsLid s.front.detLid then (kget? s.front.detCnt s.front.detLid).getD 0 else 0
    | 0x410 => s.front.spoolLo.toNat
    | 0x414 => s.front.spoolHi.toNat
    | 0x418 => s.front.spoolSz
    | 0x41C => fieldBit (s.groups.any (fun g => g.2.waitsRoom)) 0
    | 0x420 => s.front.swapLid.toNat
    | 0x428 => s.front.violLid.toNat
    | 0x42C => if s.knowsLid s.front.violLid then (kget? s.front.violCnt s.front.violLid).getD 0 else 0
    | 0x430 => s.front.dsetLid.toNat
    | 0x434 => s.front.dsetN.toNat
    | _ => 0

/-- The translation block (R220). -/
def TlbiBlock.reg (t : TlbiBlock) (off : Nat) : Nat :=
  match off with
  | 0x00 => t.vaLo.toNat | 0x04 => t.vaHi.toNat | 0x08 => t.npg
  | 0x0C => fieldBit t.busy 31 + fieldBit t.err 30 + t.die * 2 ^ 10 + t.scope * 2 ^ 7 + fieldBit t.allRoots 4 + t.root
  | 0x10 => t.gen.toNat | _ => 0

/-- The grid block (R342). -/
def Grid.reg (g : Grid) (off : Nat) : Nat :=
  if 0x10 ≤ off ∧ off < 0x30 then (g.bp.getD ((off - 0x10) / 4) 0).toNat
  else match off with
    | 0x00 => fieldBit g.stepEn 1 + fieldBit g.curveEn 0
    | 0x04 => fieldBit g.linkLost 9 + fieldBit g.backstop 8 + fieldBit g.unmet 7 + fieldBit g.cfgErr 6 + g.sub * 16 + g.stage
    | 0x08 => g.fnom | 0x0C => g.dband | 0x30 => g.pmax | 0x34 => g.fsafe | 0x38 => g.shedDl | 0x3C => g.rstGap
    | 0x40 => g.hyst | 0x44 => g.freq | 0x48 => g.vbus | 0x4C => g.stepId * 2 ^ 16 + g.stepCeil | 0x50 => g.target
    | 0x54 => g.pmeas | 0x58 => g.frameErr
    | 0x5C => g.drains * 2 ^ 16 + fieldBit g.stale 2 + fieldBit g.valid 1 + fieldBit g.resumed 0
    | _ => 0

/-- The fault-injection block (R337). -/
def Inject.reg (i : Inject) (off : Nat) : Nat :=
  match off with
  | 0x00 => i.lid.toNat | 0x04 => i.warp.toNat | 0x08 => i.cntLo.toNat | 0x0C => i.cntHi.toNat
  | 0x10 => i.die * 2 ^ 16 + i.unit * 2 ^ 8 + i.event * 2 ^ 4 + fieldBit i.err 2 + fieldBit i.fired 1 + fieldBit i.arm 0
  | _ => 0

/-- The 32-bit registers of the checkpoint block (R388, R391). -/
def Checkpoint.reg (k : Checkpoint) (off : Nat) : Nat :=
  match off with
  | 0x08 => k.lid.toNat | 0x0C => k.step.toNat | 0x10 => k.buddy
  | 0x14 => fieldBit k.busy 31 + k.enables.toNat * 2 + fieldBit k.arm 0
  | 0x18 => k.stat.toNat * 2 + fieldBit k.abandoned 0
  | 0x40 => k.nreg | 0x44 => k.half | 0x88 => k.rsSrc.toNat | 0x8C => fieldBit k.rsBusy 31 | 0x90 => k.rsStat.toNat
  | 0x94 => k.rsStep.toNat | _ => 0
/-- Its 64-bit registers. -/
def Checkpoint.reg64 (k : Checkpoint) (off : Nat) : Option Nat :=
  match off with
  | 0x00 => some k.job.toNat | 0x20 => some k.localArea.toNat | 0x28 => some k.remote.toNat | 0x30 => some k.peer.toNat
  | 0x38 => some k.regions.toNat | 0x80 => some k.rsJob.toNat | _ => none

/-- The boot and trust block (R386, R387, R393 to R395), given the service level. -/
def Boot.reg (b : Boot) (level off : Nat) : Nat :=
  if 0x100 ≤ off ∧ off < 0x300 then
    (ngetD b.meas 0 ((off - 0x100) / 0x40)).toNat / 2 ^ (8 * (off % 0x40)) % 2 ^ 32
  else if 0x500 ≤ off ∧ off < 0x7E0 then ofBytes ((b.quote.drop (off - 0x500)).take 4)
  else match off with
    | 0x000 => b.err * 2 ^ 24 + b.errStage * 2 ^ 16 + level
    | 0x420 => b.atSel.toNat
    | 0x424 => fieldBit b.atBusy 31
    | 0x808 => b.iftLen.toNat
    | 0x80C => b.iftDie * 2 ^ 16 + b.iftCluster
    | 0x810 => b.iftStat
    | _ => 0
def Boot.reg64 (b : Boot) (off : Nat) : Option Nat :=
  match off with
  | 0x080 => some b.winBase.toNat | 0x800 => some b.iftBase.toNat | _ => none

/-- The registers of a peer-fault ring, from offset 0x20 (R375). -/
def PeerLog.reg (p : PeerLog) (off : Nat) : Nat :=
  match off with
  | 0x20 => p.lo.toNat | 0x24 => p.hi.toNat | 0x28 => p.ctl.toNat | 0x2C => p.prod.toNat | 0x30 => p.cons.toNat
  | 0x34 => fieldBit p.lost 1 + fieldBit p.cfgerr 0 | _ => 0
/-- The router block (R375). -/
def Router.reg (r : Router) (domid off : Nat) : Nat :=
  if 0x1000 ≤ off ∧ off < 0x2000 then
    let x := ngetD r.nrt {} ((off - 0x1000) / 16)
    match off % 16 with
    | 0 => x.tensor.toNat | 4 => x.mask.toNat | 8 => x.value.toNat | _ => x.ctl.toNat
  else match off with
    | 0x000 => domid
    | 0x004 => r.rtimeout
    | 0x008 => r.store.length * 2 ^ 16 + r.pit.length
    | 0x00C => r.nameRef
    | off => r.plog.reg off

/-- The fault-queue registers of a die (R317). -/
def FaultQueue.reg (q : FaultQueue) (off : Nat) : Nat :=
  match off with
  | 0x00 => q.baseLo.toNat | 0x04 => q.baseHi.toNat | 0x08 => q.ctl.toNat | 0x0C => q.prod.toNat | 0x10 => q.cons.toNat
  | 0x14 => fieldBit (q.full && !q.waiting.isEmpty) 1 + fieldBit q.cfgerr 0
  | 0x18 => q.delay | 0x1C => q.rtag.toNat | _ => 0

/-- The registers of a cluster (R349, R353, R354). -/
def Cluster.reg (c : Cluster) (off : Nat) : Nat :=
  match off with
  | 0x00 => c.refill | 0x04 => c.peak | 0x08 => c.bal | 0x0C => c.debt | 0x10 => c.viol | 0x14 => c.crMiss
  | 0x18 => c.crLo.toNat | 0x1C => c.crHi.toNat | 0x20 => c.crSz | _ => 0
/-- The registers of a core (R200, R201). -/
def CoreState.reg (c : CoreState) (off : Nat) : Nat :=
  match off with
  | 0 => c.roleLo.toNat | 4 => c.roleHi.toNat | 8 => fieldBit c.refused 0 | _ => 0

/-- The die block and offset of a control-region offset (R385). -/
def dieBlock (off : Nat) : Option (Nat × Nat) :=
  if 0x00100000 ≤ off ∧ off < 0x00500000 then some (off / 0x00100000 - 1, off % 0x00100000) else none

/-- A 32-bit register of a die's block. -/
def State.dieReg (s : State) (d off : Nat) : Nat :=
  if off < 0x24 then (s.die d).fq.reg off
  else if 0x40000 ≤ off ∧ off < 0x40C00 then (ngetD s.clusters {} (12 * d + (off - 0x40000) / 0x100)).reg (off % 0x100)
  else if 0x80000 ≤ off ∧ off < 0x81800 then (s.core (384 * d + (off - 0x80000) / 0x10)).reg (off % 0x10)
  else 0

/-- The value of the 32-bit register at an offset of the control region, 0 where none is defined (R385). -/
def State.reg32 (s : State) (off : Nat) : Nat :=
  if off < 0x1000 then s.launchReg off
  else if off < 0x2000 then s.tlbi.reg (off - 0x1000)
  else if off < 0x3000 then s.grid.reg (off - 0x2000)
  else if off < 0x4000 then s.inject.reg (off - 0x3000)
  else if off < 0x5000 then s.ck.reg (off - 0x4000)
  else if off < 0x6000 then s.boot.reg s.level (off - 0x5000)
  else if 0x10000 ≤ off ∧ off < 0x12000 then s.router.reg s.domid (off - 0x10000)
  else match dieBlock off with
    | some (d, o) => s.dieReg d o
    | none => 0

/-- The value of the 64-bit register at an offset, if one is defined there (R385). -/
def State.reg64 (s : State) (off : Nat) : Option Nat :=
  if 0x4000 ≤ off ∧ off < 0x5000 then s.ck.reg64 (off - 0x4000)
  else if 0x5000 ≤ off ∧ off < 0x6000 then s.boot.reg64 (off - 0x5000)
  else if 0x8000 ≤ off ∧ off < 0x10000 then
    (if off % 8 = 0 then some (s.bucket .far ((off - 0x8000) / 8)).word else none)
  else match dieBlock off with
    | some (d, o) =>
      if o % 8 = 0 ∧ 0x10000 ≤ o ∧ o < 0x18000 then some (s.bucket (.slice (Fin.ofNat 4 d)) ((o - 0x10000) / 8)).word
      else if o % 8 = 0 ∧ 0x20000 ≤ o ∧ o < 0x28000 then some (s.bucket (.channel (Fin.ofNat 4 d)) ((o - 0x20000) / 8)).word
      else none
    | none => none

/-- A cluster (R349 to R354). -/
def State.cluster (s : State) (i : Nat) : Cluster := ngetD s.clusters {} i
def State.modCluster (s : State) (i : Nat) (fn : Cluster → Cluster) : State :=
  { s with clusters := nsetD s.clusters {} i (fn (ngetD s.clusters {} i)) }

/-- Reading a whole register clears its rc field: DETCNT, VIOLCNT, ADMVIOL, CRETMISS, FRAMEERR, NAMEREF (R9, R385). -/
def State.regClear (s : State) (off : Nat) : State :=
  match off with
  | 0x40C => { s with front := { s.front with detCnt := kdel s.front.detCnt s.front.detLid } }
  | 0x42C => { s with front := { s.front with violCnt := kdel s.front.violCnt s.front.violLid } }
  | 0x2058 => { s with grid := { s.grid with frameErr := 0 } }
  | 0x1000C => { s with router := { s.router with nameRef := 0 } }
  | off => match dieBlock off with
    | some (d, o) =>
      if 0x40000 ≤ o ∧ o < 0x40C00 then
        let i := 12 * d + (o - 0x40000) / 0x100
        if o % 0x100 = 0x10 then s.modCluster i (fun c => { c with viol := 0 })
        else if o % 0x100 = 0x14 then s.modCluster i (fun c => { c with crMiss := 0 })
        else s
      else s
    | none => s

/-- A read of a whole 32-bit register. -/
def State.regRead (s : State) (off : Nat) : State × Nat := (s.regClear off, s.reg32 off % 2 ^ 32)

/-- The 4 bytes at an aligned offset, without a clear: a register, or half of a 64-bit one. -/
def State.peek32 (s : State) (off : Nat) : Nat :=
  match s.reg64 (off / 8 * 8) with
  | some x => x / 2 ^ (8 * (off % 8)) % 2 ^ 32
  | none => s.reg32 off % 2 ^ 32

/-- An 8-byte piece of an access: one 64-bit register, or two 32-bit ones in ascending address. -/
def State.ctrlRead8 (s : State) (off : Nat) : State × Nat :=
  match s.reg64 off with
  | some x => (s, x)
  | none =>
    let r0 := s.regRead off
    let r1 := r0.1.regRead (off + 4)
    (r1.1, r0.2 + r1.2 * 2 ^ 32)

/-- A read of n bytes of the control region (R385). -/
def State.ctrlRead (s : State) (off n : Nat) : State × Nat :=
  if n = 0 ∨ off % n ≠ 0 then (s, 0)
  else if n < 4 then (s, s.peek32 (off / 4 * 4) / 2 ^ (8 * (off % 4)) % 2 ^ (8 * n))
  else if n = 4 then (match s.reg64 (off / 8 * 8) with
    | some _ => (s, s.peek32 off)
    | none => s.regRead off)
  else if n = 8 then s.ctrlRead8 off
  else
    let r0 := s.ctrlRead8 off
    let r1 := r0.1.ctrlRead8 (off + 8)
    (r1.1, r0.2 + r1.2 * 2 ^ 64)

/-- The offset in the control region of a package-local address. -/
def ctrlOff (a : Nat) : Nat := a % 2 ^ 40

end Sys2Proof.Machine
end

