-- ==== Sys2Proof/Machine/Float.lean ====
section
/-! DEFINITION. Scalar floating-point formats and rounding (R33 to R47, R101 to R116): exact dyadic values, the one
function `Round`, and every scalar conversion. -/

namespace Sys2Proof.Machine

/-- An exact value: NaN, an infinity, or (-1)^neg x m x 2^e with its sign kept when m = 0 (R39). -/
inductive FVal where
  | nan
  | inf (neg : Bool)
  | fin (neg : Bool) (m : Nat) (e : Int)
  deriving DecidableEq, Repr

/-- A scalar format (R33): exponent and fraction widths, bias, and whether the top exponent is kept for infinity. -/
structure Fmt where
  ebits : Nat
  fbits : Nat
  bias : Nat
  hasInf : Bool
  /-- The code of the largest finite value (R35). -/
  maxCode : Nat
  /-- The canonical NaN (R35). -/
  nan : Nat
  deriving DecidableEq, Repr

/-- FP32 (R33, R35). -/
def f32 : Fmt := ⟨8, 23, 127, true, 0x7F7FFFFF, 0x7FC00000⟩
/-- FP16 (R33, R35). -/
def f16 : Fmt := ⟨5, 10, 15, true, 0x7BFF, 0x7E00⟩
/-- BF16 (R33, R35). -/
def bf16 : Fmt := ⟨8, 7, 127, true, 0x7F7F, 0x7FC0⟩
/-- E4M3 (R33, R35): no infinity. -/
def e4m3 : Fmt := ⟨4, 3, 7, false, 0x7E, 0x7F⟩
/-- E5M2 (R33, R35). -/
def e5m2 : Fmt := ⟨5, 2, 15, true, 0x7B, 0x7E⟩

/-- The width of a format. -/
def Fmt.width (f : Fmt) : Nat := 1 + f.ebits + f.fbits

/-- The value of an encoding (R34). -/
def fdec (f : Fmt) (x : Nat) : FVal :=
  let neg := x / 2 ^ (f.ebits + f.fbits) % 2 == 1
  let e := x / 2 ^ f.fbits % 2 ^ f.ebits
  let fr := x % 2 ^ f.fbits
  if f.hasInf && e == 2 ^ f.ebits - 1 then (if fr = 0 then .inf neg else .nan)
  else if !f.hasInf && e == 2 ^ f.ebits - 1 && fr == 2 ^ f.fbits - 1 then .nan
  else if e = 0 then .fin neg fr (1 - (f.bias : Int) - f.fbits)
  else .fin neg (2 ^ f.fbits + fr) ((e : Int) - f.bias - f.fbits)

/-- A code with its sign bit. -/
def signed (f : Fmt) (neg : Bool) (code : Nat) : Nat := (if neg then 2 ^ (f.ebits + f.fbits) else 0) + code

/-- The code of +Inf in a format that has one. -/
def infCode (f : Fmt) : Nat := (2 ^ f.ebits - 1) * 2 ^ f.fbits

/-- `RoundUp` of R39: `t` kept units, discarded part r / 2^k with r < 2^k, generator state `g`. -/
def roundUp (mode : RMode) (neg : Bool) (t r k : Nat) (g : Word) : Bool :=
  match mode with
  | .rne => decide (2 ^ k < 2 * r) || (decide (2 * r = 2 ^ k) && t % 2 == 1)
  | .rtz => false
  | .rup => decide (0 < r) && !neg
  | .rdn => decide (0 < r) && neg
  | .rsr => decide (16777216 ≤ r * 16777216 / 2 ^ k + g.toNat / 256)

/-- m x 2^(-k) as kept units and a discarded part. A discarded part below 2^-24 of a unit whose digits lie far below the
unit acts in every mode as one of 2^-64. -/
def splitAt (m k : Nat) : Nat × Nat × Nat :=
  if Nat.log2 m + 64 < k then (0, (if m = 0 then 0 else 1), 64) else (m / 2 ^ k, m % 2 ^ k, k)

/-- `Overflow` of R40. -/
def overflow (f : Fmt) (mode : RMode) (sat neg : Bool) : Nat :=
  let toInf := match mode with
    | .rne | .rsr => true
    | .rtz => false
    | .rup => !neg
    | .rdn => neg
  if toInf && !sat then (if f.hasInf then signed f neg (infCode f) else f.nan) else signed f neg f.maxCode

/-- The exponent of the last place of the result of rounding m x 2^e, m > 0 (R39). -/
def placeOf (f : Fmt) (m : Nat) (e : Int) : Int :=
  max ((Nat.log2 m : Int) + e) (1 - (f.bias : Int)) - f.fbits

/-- The magnitude code of `t` units of the last place `q` (R34): a carry out of the fraction gives the next binade. -/
def magCode (f : Fmt) (t : Nat) (q : Int) : Nat := (q - (1 - (f.bias : Int) - f.fbits)).toNat * 2 ^ f.fbits + t

/-- `Round(x, fmt, mode, sat)` of R39 with generator state `g`: the encoding of the result. -/
def fround (f : Fmt) (mode : RMode) (sat : Bool) (g : Word) : FVal → Nat
  | .nan => f.nan
  | .inf neg => if sat then signed f neg f.maxCode else if f.hasInf then signed f neg (infCode f) else f.nan
  | .fin neg m e =>
    if m = 0 then signed f neg 0
    else
      let q := placeOf f m e
      let (t, r, k) := if q ≤ e then (m * 2 ^ (e - q).toNat, 0, 0) else splitAt m (q - e).toNat
      let y := if roundUp mode neg t r k g then t + 1 else t
      let code := magCode f y q
      if f.maxCode < code then overflow f mode sat neg else signed f neg code

/-- `RoundRNE(x, fmt)`. -/
def froundRNE (f : Fmt) (x : FVal) : Nat := fround f .rne false 0 x

/-- The sign inverted. -/
def FVal.neg : FVal → FVal
  | .nan => .nan
  | .inf s => .inf (!s)
  | .fin s m e => .fin (!s) m e

/-- An exact product (R101). -/
def FVal.mul : FVal → FVal → FVal
  | .nan, _ | _, .nan => .nan
  | .inf s, .inf t => .inf (s != t)
  | .inf s, .fin t m _ | .fin t m _, .inf s => if m = 0 then .nan else .inf (s != t)
  | .fin s m e, .fin t n f => .fin (s != t) (m * n) (e + f)

/-- The value of a finite term in units of 2^e0, where e0 is at most its exponent. -/
def termInt (e0 : Int) : FVal → Int
  | .fin s m e => let v : Int := (m : Int) * 2 ^ (e - e0).toNat; if s then -v else v
  | _ => 0

/-- The exponent of a finite term. -/
def termExp : FVal → Int
  | .fin _ _ e => e
  | _ => 0

/-- The least of a list of integers, or 0. -/
def leastInt : List Int → Int
  | [] => 0
  | [a] => a
  | a :: l => min a (leastInt l)

/-- An exact sum (R101, R43). `rdn` chooses the sign of a zero sum whose terms are not all zeros of one sign. -/
def fsum (rdn : Bool) (l : List FVal) : FVal :=
  if l.any (fun x => x == .nan) || (l.any (fun x => x == .inf true) && l.any (fun x => x == .inf false)) then .nan
  else if l.any (fun x => x == .inf true) then .inf true
  else if l.any (fun x => x == .inf false) then .inf false
  else
    let e0 := leastInt (l.map termExp)
    let s := (l.map (termInt e0)).foldl (· + ·) 0
    if s = 0 then
      let allZero (neg : Bool) := l.all (fun x => match x with | .fin t m _ => t == neg && m == 0 | _ => false)
      .fin (if allZero true then true else if allZero false then false else rdn) 0 0
    else .fin (decide (s < 0)) s.natAbs e0

/-- Does a value compare as less (both ordered)? -/
def FVal.lt (a b : FVal) : Bool :=
  match a, b with
  | .nan, _ | _, .nan => false
  | .inf s, .inf t => s && !t
  | .inf s, .fin .. => s
  | .fin .., .inf t => !t
  | .fin s m e, .fin t n f =>
    let e0 := min e f
    decide (termInt e0 (.fin s m e) < termInt e0 (.fin t n f))

/-- Are two ordered values equal? The zeros are (R105). -/
def FVal.eq (a b : FVal) : Bool := !(a == .nan) && !(b == .nan) && !(a.lt b) && !(b.lt a)

/-- A sign bit of a value. -/
def FVal.isNeg : FVal → Bool
  | .nan => false
  | .inf s => s
  | .fin s _ _ => s

/-- FMIN and FMAX on encodings of one format (R103, R108). -/
def fminmax (f : Fmt) (isMax : Bool) (a b : Nat) : Nat :=
  let x := fdec f a
  let y := fdec f b
  match x, y with
  | .nan, .nan => f.nan
  | .nan, _ => b
  | _, .nan => a
  | _, _ =>
    if x.lt y then (if isMax then b else a)
    else if y.lt x then (if isMax then a else b)
    else if x.isNeg == isMax then b else a

/-- FADD, FMUL and the fused forms on encodings (R102, R108): the rounded sum of given terms. -/
def faddOp (f : Fmt) (a b : Nat) : Nat := froundRNE f (fsum false [fdec f a, fdec f b])
/-- FSUB. -/
def fsubOp (f : Fmt) (a b : Nat) : Nat := froundRNE f (fsum false [fdec f a, (fdec f b).neg])
/-- FMUL. -/
def fmulOp (f : Fmt) (a b : Nat) : Nat := froundRNE f ((fdec f a).mul (fdec f b))
/-- FFMA. -/
def ffmaOp (f : Fmt) (a b d : Nat) : Nat := froundRNE f (fsum false [(fdec f a).mul (fdec f b), fdec f d])
/-- FFMS. -/
def ffmsOp (f : Fmt) (a b d : Nat) : Nat := froundRNE f (fsum false [(fdec f a).mul (fdec f b), (fdec f d).neg])
/-- FFNMA. -/
def ffnmaOp (f : Fmt) (a b d : Nat) : Nat := froundRNE f (fsum false [((fdec f a).mul (fdec f b)).neg, fdec f d])

/-- FFMA4 on one element (R111). -/
def ffma4Op (f : Fmt) (mode : RMode) (np nc : Bool) (g : Word) (a b c : Nat) : Nat :=
  let p := (fdec f a).mul (fdec f b)
  let x := fdec f c
  fround f mode false g (fsum (mode == .rdn) [if np then p.neg else p, if nc then x.neg else x])

/-- FSCALE (R102): an exponent so far out that every result overflows or vanishes is brought near, so that the exact
value stays a number that can be written down. -/
def fscaleOp (a : Nat) (n : Int) : Nat :=
  match fdec f32 a with
  | .nan => f32.nan
  | .inf s => signed f32 s (infCode f32)
  | .fin s m e => froundRNE f32 (.fin s m (e + satInt n (-1000) 1000))

/-- FABS (R104). -/
def fabsOp (a : Nat) : Nat := if fdec f32 a == .nan then f32.nan else a % 2 ^ 31
/-- FNEG (R104). -/
def fnegOp (a : Nat) : Nat := if fdec f32 a == .nan then f32.nan else (a + 2 ^ 31) % 2 ^ 32

/-- FCLASS (R106). -/
def fclassOp (a : Nat) : Nat :=
  match fdec f32 a with
  | .nan => 2 ^ 8
  | .inf true => 1
  | .inf false => 2 ^ 7
  | .fin s m _ =>
    if m = 0 then (if s then 2 ^ 3 else 2 ^ 4)
    else if a % 2 ^ 31 < 2 ^ 23 then (if s then 2 ^ 2 else 2 ^ 5)
    else (if s then 2 else 2 ^ 6)

/-- `RoundInt(|x|, mode, sign)` (R45) of m x 2^e. -/
def roundInt (mode : RMode) (neg : Bool) (g : Word) (m : Nat) (e : Int) : Nat :=
  if 0 ≤ e then m * 2 ^ e.toNat
  else
    let (t, r, k) := splitAt m (-e).toNat
    if roundUp mode neg t r k g then t + 1 else t

/-- FROUND (R107). -/
def froundOp (mode : RMode) (g : Word) (a : Nat) : Nat :=
  match fdec f32 a with
  | .nan => f32.nan
  | .inf _ => a
  | .fin s m e => if m = 0 then a else froundRNE f32 (.fin s (roundInt mode s g m e) 0)

/-- FDOT2.b2 (R110). -/
def fdot2Op (acc a b : Word) : Nat :=
  froundRNE f32 (fsum false [fdec f32 acc.toNat, (fdec bf16 (loHalf a).toNat).mul (fdec bf16 (loHalf b).toNat),
    (fdec bf16 (hiHalf a).toNat).mul (fdec bf16 (hiHalf b).toNat)])

/-! ## Conversions -/

/-- The format of a floating type. -/
def CvtType.fmt : CvtType → Option Fmt
  | .f32 => some f32
  | .f16 => some f16
  | .bf16 => some bf16
  | .e4 => some e4m3
  | .e5 => some e5m2
  | _ => none

/-- Width and signedness of an integer type (R30). -/
def CvtType.int : CvtType → Nat × Bool
  | .s8 => (8, true) | .n8 => (8, false) | .s16 => (16, true) | .n16 => (16, false)
  | .s32 => (32, true) | .n32 => (32, false) | .s64 => (64, true) | .n64 => (64, false)
  | _ => (32, false)

/-- Width of a type. -/
def CvtType.width (t : CvtType) : Nat :=
  match CvtType.fmt t with
  | some f => f.width
  | none => (CvtType.int t).1

/-- `MinOf(t)` (R32). -/
def intMin (w : Nat) (s : Bool) : Int := if s then -(2 ^ (w - 1)) else 0
/-- `MaxOf(t)` (R32). -/
def intMax (w : Nat) (s : Bool) : Int := if s then 2 ^ (w - 1) - 1 else 2 ^ w - 1

/-- The integer that the low bits of a source hold. -/
def intDec (w : Nat) (s : Bool) (x : Nat) : Int :=
  let v := x % 2 ^ w
  if s && decide (2 ^ (w - 1) ≤ v) then (v : Int) - 2 ^ w else v

/-- Floating to integer (R45). -/
def floatToInt (w : Nat) (s : Bool) (mode : RMode) (g : Word) : FVal → Int
  | .nan => 0
  | .inf neg => if neg then intMin w s else intMax w s
  | .fin neg m e =>
    let k : Int := roundInt mode neg g m e
    satInt (if neg then -k else k) (intMin w s) (intMax w s)

/-- Integer to integer (R47): kept where the destination holds every value of the source, else wrapped or clipped. -/
def intToInt (sw : Nat) (ss : Bool) (dw : Nat) (ds sat : Bool) (n : Int) : Int :=
  if decide (sw ≤ dw) && (ss == ds || (!ss && decide (sw < dw))) then n
  else if sat then satInt n (intMin dw ds) (intMax dw ds) else n

/-- The result bits of a conversion (R44 to R47), as the low bits of the destination: 64 of them, sign-extended to 32
bits for a signed type of 8 or 16 bits (R31). -/
def convert (dst src : CvtType) (mode : RMode) (sat : Bool) (g : Word) (x : Nat) : Nat :=
  let (sw, ss) := CvtType.int src
  let (dw, ds) := CvtType.int dst
  let place (n : Int) : Nat := (n % (2 ^ (if dw = 64 then 64 else if ds then 32 else dw) : Int)).toNat
  let fit (n : Int) : Nat := place (intDec dw ds ((n % (2 ^ dw : Int)).toNat))
  match CvtType.fmt src, CvtType.fmt dst with
  | some fs, some fd => fround fd mode sat g (fdec fs (x % 2 ^ fs.width))
  | some fs, none => fit (floatToInt dw ds mode g (fdec fs (x % 2 ^ fs.width)))
  | none, some fd =>
    let n := intDec sw ss x
    fround fd mode sat g (.fin (decide (n < 0)) n.natAbs 0)
  | none, none => fit (intToInt sw ss dw ds sat (intDec sw ss x))

end Sys2Proof.Machine
end

