-- ==== Sys2Proof/Machine/Update.lean ====
section
/-! DEFINITION. What an atomic or a reduction makes of one element (R254, R255, R257). -/

namespace Sys2Proof

/-- The element size of a type in bytes (R254). -/
def AtomType.size (t : AtomType) : Nat := if t.is64 then 8 else 4

/-- The alignment of a type in bytes (R254). -/
def AtomType.align : AtomType → Nat
  | .h2 | .b2 => 2
  | t => t.size

/-- The element size and alignment of ATOMCAS (R257). -/
def CasType.size : CasType → Nat
  | .b16 => 2
  | .b32 => 4
  | .b64 => 8

/-- A floating type: its rounding may depend on the order of its contributions (R246, R258, R259). -/
def AtomType.isFloat : AtomType → Bool
  | .f32 | .h2 | .b2 => true
  | _ => false

namespace Machine

/-- Integer minimum and maximum of w-bit values. -/
def intMinMax (w : Nat) (signed isMax : Bool) (a b : Nat) : Nat :=
  let x := intDec w signed a
  let y := intDec w signed b
  if isMax then (if x < y then b else a) else (if y < x then b else a)

/-- One floating element. -/
def floatUpdate (f : Fmt) (op : AtomOp) (m x : Nat) : Nat :=
  match op with
  | .add => faddOp f m x
  | .min => fminmax f false m x
  | .max => fminmax f true m x
  | _ => m

/-- One integer element of w bits. -/
def intUpdate (w : Nat) (signed : Bool) (op : AtomOp) (m x : Nat) : Nat :=
  match op with
  | .add => (m + x) % 2 ^ w
  | .min => intMinMax w signed false m x
  | .max => intMinMax w signed true m x
  | .and => m &&& x
  | .or => m ||| x
  | .xor => m ^^^ x
  | .exch => x
  | .inc => if x ≤ m then 0 else m + 1
  | .dec => if m = 0 ∨ x < m then x else m - 1

/-- The two halves of a word, each updated on its own (R256). -/
def pairUpdate (f : Fmt) (op : AtomOp) (m x : Nat) : Nat :=
  floatUpdate f op (m / 65536 % 65536) (x / 65536 % 65536) * 65536 + floatUpdate f op (m % 65536) (x % 65536)

/-- The updated element of `size` bytes: AtomOp of R255; a pair acts on both halves, or on one half where it straddles. -/
def atomElement (op : AtomOp) (ty : AtomType) (size m x : Nat) : Nat :=
  match ty with
  | .f32 => floatUpdate f32 op m x
  | .h2 => if size = 2 then floatUpdate f16 op (m % 65536) (x % 65536) else pairUpdate f16 op m x
  | .b2 => if size = 2 then floatUpdate bf16 op (m % 65536) (x % 65536) else pairUpdate bf16 op m x
  | .s32 => intUpdate 32 true op m x
  | .n32 | .b32 => intUpdate 32 false op m x
  | .s64 => intUpdate 64 true op m x
  | .n64 | .b64 => intUpdate 64 false op m x

/-- What a unit writes over the old value m: nothing when a compare fails (R255, R257). -/
def Update.apply (u : Update) (size m : Nat) : Option Nat :=
  match u with
  | .op o ty x => some (atomElement o ty size m x.toNat)
  | .cas _ e n => if m = e.toNat % 2 ^ (8 * size) then some (n.toNat % 2 ^ (8 * size)) else none

end Machine
end Sys2Proof
end

