-- ==== Sys2Proof/Machine/Combine.lean ====
section
/-! DEFINITION. Reductions and deterministic stores at memory: the combining buffer (R233, R258), poisoned flushes (R334),
held floating reductions (R246) and the tags of R242. -/

namespace Sys2Proof.Machine

/-! ## The place of an address -/

/-- The die whose slices are home to a package-local address (R206). -/
def homeDie (a : Nat) : Nat :=
  if a < 0x04000000000 then a / 0x01000000000 else a / 0x04000000000 % 4
/-- The home slice of a package-local address: its die and slice (R207, R210). -/
def State.homeSlice (s : State) (a : Nat) : Nat × Nat :=
  let d := homeDie a % 4
  (d, (s.bucket (.slice (Fin.ofNat 4 d)) (bucketOf a)).home (a / 128))

/-- Is an atomic of core c performed at the home slice (R231)? At warp or core scope it is performed in L1 while the core's L1
owns the line exclusively. -/
def State.atHome (s : State) (c a : Nat) (scope : Scope) : Bool :=
  match scope with
  | .warp | .core => !(((nget? (s.core c).l1 (lineOf a)).map (·.owned)).getD false)
  | _ => true

/-- Update one element of package memory as one member of O; answers the old value (R224, R255). -/
def State.updateMem (s : State) (c a size : Nat) (u : Update) (atHome : Bool) : State × Nat :=
  let m := s.memVal a size
  let s := s.stampStore c a atHome
  match u.apply size m with
  | some x => (s.writeAtomic a (bytesOf size x), m)
  | none => (s, m)

/-! ## The combining buffer -/

/-- The unit that a flush of an entry performs: its address and size (R256, R258). -/
def CombEntry.unit (e : CombEntry) : Nat × Nat :=
  if e.halves = 1 then (e.pa, 2) else if e.halves = 2 then (e.pa + 2, 2) else (e.pa, e.ty.size)
/-- The operand of that unit. -/
def CombEntry.operand (e : CombEntry) : DWord := if e.halves = 2 then e.x >>> 16 else e.x

/-- Do two byte ranges meet? -/
def overlaps (a n b m : Nat) : Bool := decide (a < b + m) && decide (b < a + n)
/-- Does an entry's word meet a byte range? -/
def CombEntry.touches (e : CombEntry) (a n : Nat) : Bool := overlaps e.pa e.ty.size a n

/-- The record of a flush that reads a poisoned sector (R334). -/
def CombEntry.record (e : CombEntry) (c : Nat) : FaultRec :=
  let lid := (e.contributors.headD ⟨0, 0⟩).lid
  { cause := 0x14, flags := flagFlush, lid := lid,
    warp := (leastOf ((e.contributors.filter (fun k => k.lid == lid)).map (·.w))).getD 0, addr := e.va, place := placeWord c }

/-- Replace an entry of a buffer, or remove it. -/
def replaceEntry (e : CombEntry) (f : Option CombEntry) : List CombEntry → List CombEntry
  | [] => []
  | x :: l => if x = e then f.toList ++ l else x :: replaceEntry e f l

/-- Flush one entry of core c (R233, R258): one update in O; on a poisoned sector the flush is held with a record (R334). -/
def State.flushEntry (s : State) (c : Nat) (e : CombEntry) : State :=
  let u := e.unit
  if s.poisoned u.1 u.2 then
    (match e.held with
    | some _ => s
    | none =>
      let r := s.record (dieOf c) (e.record c)
      r.1.modCore c (fun k => { k with comb := replaceEntry e (some { e with held := some (dieOf c, r.2) }) k.comb }))
  else
    ((s.modCore c (fun k => { k with comb := replaceEntry e none k.comb })).updateMem c u.1 u.2 (.op e.op e.ty e.operand)
      (s.atHome c u.1 e.scope)).1

/-- Flush every entry of a core that meets a condition, the oldest first. -/
def State.flushWhere (s : State) (c : Nat) (f : CombEntry → Bool) : State :=
  ((s.core c).comb.filter f).foldl (fun s e => s.flushEntry c e) s

/-- A warp's release flushes the entries it contributed to (R233, event 1). -/
def State.flushWarp (s : State) (k : WarpKey) : State := s.flushWhere (s.coreNo k) (fun e => e.contributors.contains k)
/-- An access of a core to bytes flushes the entries of their words first (R233, events 4 to 6). -/
def State.flushBytes (s : State) (c a n : Nat) : State := s.flushWhere c (·.touches a n)
/-- Is a flush of these bytes, or a held reduction of a phase that has ended, held on poison? Then the access waits (R334). -/
def State.heldBytes (s : State) (c a n : Nat) : Bool :=
  (s.core c).comb.any (fun e => e.held.isSome && e.touches a n) || s.heldReds.any (fun r => r.due && overlaps (r.pa / 4 * 4) 4 a n)
/-- The entries that a launch contributed to (R233, event 8). -/
def State.flushLaunch (s : State) (lid : Word) : State :=
  s.cores.foldl (fun s x => s.flushWhere x.1 (fun e => e.contributors.any (fun k => k.lid == lid))) s
/-- Does an entry of the warp rest in its core's buffer? (R53, R238) -/
def State.warpRests (s : State) (k : WarpKey) : Bool :=
  (s.core (s.coreNo k)).comb.any (fun e => e.contributors.contains k)

/-- The merged entry: AtomOp of the entry's value and the contribution, half by half where only one half is there (R258). -/
def CombEntry.merge (e : CombEntry) (halves : Nat) (x : DWord) (k : WarpKey) : CombEntry :=
  let v :=
    if e.halves = 3 ∧ halves = 3 then atomElement e.op e.ty e.ty.size e.x.toNat x.toNat
    else
      let half := fun (i : Nat) =>
        let m := e.x.toNat / 2 ^ (16 * i) % 65536
        let y := x.toNat / 2 ^ (16 * i) % 65536
        if !e.halves.testBit i then y else if !halves.testBit i then m else atomElement e.op e.ty 2 m y
      half 1 * 65536 + half 0
  { e with x := BitVec.ofNat 64 v, halves := e.halves ||| halves,
           contributors := if e.contributors.contains k then e.contributors else e.contributors ++ [k] }

/-- May a reduction merge into an entry? The key is (word, op, type, scope); inc and dec never merge (R258). -/
def CombEntry.matches_ (e : CombEntry) (pa : Nat) (op : AtomOp) (ty : AtomType) (scope : Scope) : Bool :=
  e.pa == pa && e.op == op && e.ty == ty && e.scope == scope && op != .inc && op != .dec && e.held.isNone

/-- The oldest entries are evicted, which flushes them, until one is free (R258); an entry whose flush is held on poison stays. -/
def State.makeRoom (s : State) (c : Nat) : State :=
  (s.core c).comb.foldl (fun s e => if (s.core c).comb.length < 64 then s else s.flushEntry c e) s

/-- A reduction unit reaches its core's buffer (R233, R258): it merges, or takes a new entry; a full buffer evicts its oldest
entry. Where every entry is held on poison the reduction, which never waits for room, is flushed at once. `pa` is aligned to
the element. -/
def State.addRed (s : State) (c pa va halves : Nat) (op : AtomOp) (ty : AtomType) (scope : Scope) (x : DWord) (k : WarpKey) :
    State :=
  match (s.core c).comb.find? (·.matches_ pa op ty scope) with
  | some e => s.modCore c (fun q => { q with comb := replaceEntry e (some (e.merge halves x k)) q.comb })
  | none =>
    let s := (s.flushBytes c pa ty.size).makeRoom c
    let e : CombEntry := { pa := pa, va := va, op := op, ty := ty, scope := scope, halves := halves, x := x, contributors := [k] }
    let full := decide (64 ≤ (s.core c).comb.length)
    let s := s.modCore c (fun q => { q with comb := q.comb ++ [e] })
    if full then s.flushEntry c e else s

/-! ## Deterministic launches: tags (R242) and conflicts (R243) -/

/-- The tag of a word for a launch's phase, if it has one. A tag of another deterministic launch is none of this launch's, and
its store overwrites it (DESIGN CHOICE, log entry 125). -/
def State.tagOf (s : State) (l : Launch) (word : Nat) : Option DetTag :=
  match nget? s.tags word with
  | some t => if t.lid = l.record.lid ∧ t.phase = l.phase then some t else none
  | none => none

/-- The words of a store: word number, and the bytes it writes there with their offset. -/
def wordsOf (a : Nat) (b : List Byte) : List (Nat × Nat × List Byte) :=
  (List.range ((a + b.length + 3) / 4 - a / 4)).map fun i =>
    let w := a / 4 + i
    let lo := max a (4 * w)
    (w, lo, (b.drop (lo - a)).take (min (4 * w + 4) (a + b.length) - lo))

/-- Step 1 of R242 for one word. -/
def State.conflicts (s : State) (l : Launch) (ident word : Nat) (part : Bool) : Bool :=
  match s.tagOf l word with
  | some t => t.ident != ident && (part || t.part)
  | none => false

/-- Count conflicts of a launch (R243). -/
def State.countConflicts (s : State) (lid : Word) (n : Nat) : State :=
  if n = 0 then s
  else
    let m := kput s.front.detCnt lid (min 0xFFFFFFFF ((kget? s.front.detCnt lid).getD 0 + n))
    { s with front := { s.front with detCnt := m } }

/-- A plain store of a DET launch to package memory (R242), word by word; answers whether it takes DET_CONFLICT. -/
def State.detStore (s : State) (c : Nat) (l : Launch) (ident a : Nat) (b : List Byte) : State × Bool :=
  let ws := wordsOf a b
  let bad := ws.filter (fun w => s.conflicts l ident w.1 (w.2.2.length != 4))
  let s := s.countConflicts l.record.lid bad.length
  if l.detcnf && !bad.isEmpty then (s, true)
  else
    (ws.foldl (fun s w =>
      match s.tagOf l w.1 with
      | some t => if ident < t.ident then s else put s w
      | none => put s w) s, false)
where
  /-- Step 3: the store is applied in this word, at its home slice (R241), and the tag becomes the store's. -/
  put (s : State) (w : Nat × Nat × List Byte) : State :=
    let s := (s.stampStore c w.2.1 true).writeMem w.2.1 w.2.2
    { s with tags := nput s.tags w.1 ⟨l.record.lid, l.phase, ident, w.2.2.length != 4⟩ }

/-- Drop the tags of a launch: its phase starts or it finishes (R242). -/
def State.clearTags (s : State) (lid : Word) : State := { s with tags := s.tags.filter (fun t => t.2.lid != lid) }

/-! ## Held floating reductions (R246) -/

/-- How many reductions a home slice holds. -/
def State.heldCount (s : State) (slice : Nat × Nat) : Nat := s.heldReds.countP (fun r => s.homeSlice r.pa == slice)

/-- A held reduction as the unit that it performs: address, size and operand. -/
def HeldRed.unit (r : HeldRed) : Nat × Nat × DWord :=
  let e : CombEntry := { pa := r.pa / 4 * 4, va := 0, op := .add, ty := r.ty, scope := .package, halves := r.halves, x := r.x,
                         contributors := [] }
  (e.unit.1, e.unit.2, e.operand)
/-- The slice applies one held reduction. It is stamped as a write from outside every core (DESIGN CHOICE, log entry 126). -/
def State.applyRed (s : State) (r : HeldRed) : State :=
  let u := r.unit
  match (Update.op .add r.ty u.2.2).apply u.2.1 (s.memVal u.1 u.2.1) with
  | some x => (s.stampOutside (lineOf u.1)).writeAtomic u.1 (bytesOf u.2.1 x)
  | none => s
/-- The record of a held reduction that meets a poisoned sector, as that of a held flush (R334). -/
def HeldRed.record (r : HeldRed) : FaultRec :=
  { cause := 0x14, flags := flagFlush, lid := r.lid, warp := r.ident / 64, addr := r.va, place := r.die * 2 ^ 30 }

/-- Apply the reductions of a launch whose phase has ended, in their order. One that meets a poisoned sector, or stands behind one
of the same word that does, is held as a flush is (R334: DEDUCED, log entry 127). -/
def State.applyDue (s : State) : List HeldRed → State
  | [] => s
  | r :: l =>
    if s.heldReds.any (fun q => q.due && q.pa / 4 == r.pa / 4) then
      State.applyDue { s with heldReds := s.heldReds ++ [{ r with due := true }] } l
    else if s.poisoned r.unit.1 r.unit.2.1 then
      let x := s.record r.die r.record
      State.applyDue { x.1 with heldReds := x.1.heldReds ++ [{ r with due := true, held := some (r.die, x.2) }] } l
    else State.applyDue (s.applyRed r) l

/-- The phase of a launch ends: its held reductions are applied in ascending identity, within one in issue order (R246), after
those that poison still holds. -/
def State.applyHeld (s : State) (lid : Word) : State :=
  let now := s.heldReds.filter (fun r => r.lid == lid && !r.due)
  ({ s with heldReds := s.heldReds.filter (fun r => !(r.lid == lid && !r.due)) } : State).applyDue
    (sortBy (fun r => r.ident) (sortBy (fun r => r.seq) now))
/-- Try again the held reductions of a word, the oldest first, once the first of them waits on no record. -/
def State.retryDue (s : State) (word : Nat) : State :=
  let mine := s.heldReds.filter (fun r => r.due && r.pa / 4 == word)
  if (mine.head?).any (fun r => r.held.isNone) then
    ({ s with heldReds := s.heldReds.filter (fun r => !(r.due && r.pa / 4 == word)) } : State).applyDue mine
  else s

end Sys2Proof.Machine
end

