-- ==== Sys2Proof/Machine/Barriers.lean ====
section
/-! DEFINITION. Barrier instances and the operations on them (R164 to R173, R244, R376). The instructions that use them are in
BarrierInstrs.lean. -/

namespace Sys2Proof.Machine

/-! ## Gangs and places -/

def Launch.gangOf (l : Launch) (g : Nat) : Nat := g / l.record.gang
/-- GANGRANK (R177). -/
def Launch.rankOf (l : Launch) (g : Nat) : Nat := g % l.record.gang
/-- The groups of a gang. -/
def Launch.gangGroups (l : Launch) (gang : Nat) : List Nat := (List.range l.record.gang).map (fun i => gang * l.record.gang + i)
/-- The warps of a group, by logical warp number. -/
def Launch.groupWarps (l : Launch) (g : Nat) : List Nat := (List.range l.record.warps).map (fun i => g * l.record.warps + i)
/-- The die whose die barriers a group belongs to, also once it has ended (R164). -/
def State.homeOf (s : State) (lid : Word) (g : Nat) : Option Nat :=
  match s.group? ⟨lid, g⟩ with
  | some q => some q.home
  | none => (s.launch? lid).bind (fun l => nget? l.homes g)

/-! ## Instances -/

/-- The bit of a barrier in ARRIVED, APAR and DROPPED (R166, R324). -/
def barBit (o : BarOp) : Nat :=
  (match o.scope with
  | .quad => 16 | .cluster => 24 | .die => 32 | .package => 40 | .domain => 44 | _ => 0) + o.index.val

/-- The 8-bit barrier operand (R165). -/
def barOperand (o : BarOp) : Nat := o.scope.code * 32 + o.index.val

/-- The instance that contains a warp, if its launch holds such barriers (R164). -/
def State.barKey? (s : State) (k : WarpKey) (o : BarOp) : Option BarKey :=
  match s.launch? k.lid with
  | none => none
  | some l =>
    let g := groupIndex l k.w
    let wide := fun (i : Nat) => if l.widebar then some ⟨k.lid, o.scope, i, o.index.val⟩ else none
    match o.scope with
    | .warp => none
    | .core => some ⟨k.lid, .core, g, o.index.val⟩
    | .quad => some ⟨k.lid, .quad, l.gangOf g * 8 + l.rankOf g / 4, o.index.val⟩
    | .cluster => some ⟨k.lid, .cluster, l.gangOf g, o.index.val⟩
    | .die => (s.homeOf k.lid g).bind wide
    | .package => wide 0
    | .domain => wide 0

/-- The groups of an instance on this package (R164). -/
def State.barGroups (s : State) (l : Launch) (b : BarKey) : List Nat :=
  match b.scope with
  | .core => [b.inst]
  | .quad => (l.gangGroups (b.inst / 8)).filter (fun g => l.rankOf g / 4 == b.inst % 8)
  | .cluster => l.gangGroups b.inst
  | .die => (List.range l.record.groups).filter (fun g => s.homeOf b.lid g == some b.inst)
  | _ => List.range l.record.groups
/-- The member warps of an instance on this package. -/
def State.members (s : State) (b : BarKey) : List WarpKey :=
  match s.launch? b.lid with
  | none => []
  | some l => ((s.barGroups l b).flatMap l.groupWarps).map (fun w => ⟨b.lid, w⟩)
/-- The default E of an instance (R164, R376). -/
def State.defaultE (s : State) (b : BarKey) : Nat :=
  match s.launch? b.lid with
  | none => 0
  | some l => (s.barGroups l b).length * l.record.warps + (if b.scope = .domain then l.domainOthers else 0)

/-- The state of an instance: an instance not listed is as at launch. -/
def State.barrier (s : State) (b : BarKey) : Barrier :=
  match b.scope with
  | .core => ((s.group? ⟨b.lid, b.inst⟩).bind (fun g => nget? g.bars b.index)).getD { e := s.defaultE b }
  | _ => (kget? s.bars b).getD { e := s.defaultE b }
def State.setBarrier (s : State) (b : BarKey) (x : Barrier) : State :=
  match b.scope with
  | .core => s.modGroup ⟨b.lid, b.inst⟩ (fun g => { g with bars := nput g.bars b.index x })
  | _ => { s with bars := kput s.bars b x }

/-- The largest E of a scope (R166). -/
def maxE : Scope → Nat
  | .die | .package | .domain => 268435455
  | _ => 4095

/-! ## The bits of a member -/

def Warp.arrivedBit (w : Warp) (o : BarOp) : Bool := w.arrived.getLsbD (barBit o)
def Warp.aparBit (w : Warp) (o : BarOp) : Bool := w.apar.getLsbD (barBit o)
def Warp.droppedBit (w : Warp) (o : BarOp) : Bool := w.dropped.getLsbD (barBit o)
/-- Set or clear a bit. -/
def withBit (x : BitVec 48) (i : Nat) (b : Bool) : BitVec 48 :=
  if b then x ||| BitVec.ofNat 48 (2 ^ i) else x &&& ~~~(BitVec.ofNat 48 (2 ^ i))
def Warp.setArrived (w : Warp) (o : BarOp) (b : Bool) : Warp := { w with arrived := withBit w.arrived (barBit o) b }
def Warp.setApar (w : Warp) (o : BarOp) (b : Bool) : Warp := { w with apar := withBit w.apar (barBit o) b }
def Warp.setDropped (w : Warp) (o : BarOp) (b : Bool) : Warp := { w with dropped := withBit w.dropped (barBit o) b }

/-- A warp's ordering count (R244). -/
def Warp.order (w : Warp) : Nat := w.retired + w.lift
/-- A completion lifts a member to at least a given ordering count (R244). -/
def Warp.liftTo (w : Warp) (n : Nat) : Warp := { w with lift := max w.lift (n - w.retired) }

/-- Is the barrier launch-wide (R172, R376)? -/
def State.launchWide (s : State) (b : BarKey) : Bool :=
  match s.launch? b.lid with
  | none => false
  | some l => match b.scope with
    | .domain => true
    | .package => l.domainPackages == 1
    | .die => l.domainPackages == 1 && l.dies.length == 1
    | _ => false

/-- A launch-wide completion ends the phase: held reductions are applied, tags cleared, before any member is released
(R172, R241, R242, R246). -/
def State.endPhase (s : State) (lid : Word) : State :=
  ((s.applyHeld lid).clearTags lid).modLaunch lid (fun l => { l with phase := l.phase + 1 })

/-- The local side of a completion: the phase, the lifts, and the new parity, which releases every waiting warp (R167). -/
def State.turnBarrier (s : State) (b : BarKey) : State :=
  let x := s.barrier b
  let s := if s.launchWide b then s.endPhase b.lid else s
  let s := (s.members b).foldl (fun s k => s.modWarp k (·.liftTo x.top)) s
  s.setBarrier b { x with count := 0, parity := !x.parity, top := 0 }

/-- Complete(B) (R167); the root of a domain launch tells the other packages (R376). -/
def State.completeBarrier (s : State) (b : BarKey) : State :=
  let top := (s.barrier b).top
  let s := s.turnBarrier b
  match s.launch? b.lid with
  | some l => if b.scope = .domain ∧ l.domainPackages ≠ 1 then s.send (.barrierComplete b.lid b.index top) else s
  | none => s

/-- One arrival is counted at the instance (R167). -/
def State.countArrival (s : State) (b : BarKey) (order : Nat) : State :=
  let x := s.barrier b
  let x := { x with count := x.count + 1, top := max x.top order }
  let s := s.setBarrier b x
  if x.e ≤ x.count then s.completeBarrier b else s

/-- Complete(B) where the count has reached an E above 0 (R169). -/
def State.completeIfDue (s : State) (b : BarKey) : State :=
  let x := s.barrier b
  if 0 < x.e && x.e ≤ x.count then s.completeBarrier b else s

/-- Is this package not the root of the domain barrier (R376)? -/
def State.remoteRoot (s : State) (b : BarKey) : Option Nat :=
  match s.launch? b.lid with
  | some l => if b.scope = .domain ∧ l.domainPackages ≠ 1 ∧ l.domainRoot ≠ s.domid then some l.domainRoot else none
  | none => none

/-- Arrive(B) by a warp whose earlier accesses are in O: its combining-buffer entries are flushed, its bits set, and the
arrival is counted here or sent to the root (R167, R171, R233, R376). -/
def State.arrive (s : State) (k : WarpKey) (o : BarOp) (b : BarKey) (n : Nat) : State :=
  let s := s.flushWarp k
  let x := s.barrier b
  let s := s.modWarp k (fun w => (w.setArrived o true).setApar o x.parity)
  match s.remoteRoot b with
  | none => s.countArrival b n
  | some r => (s.setBarrier b { x with top := max x.top n }).send (.barrierArrive r b.lid b.index n)

/-- Has the warp an arrival at the barrier that its earlier accesses still hold back (R329)? -/
def Warp.hasArrive (w : Warp) (o : BarOp) : Bool := w.pend.any (fun p => match p.kind with
  | .arrive o' _ => o' == o
  | _ => false)

/-- May the warp address the barrier (R167)? -/
def State.mayAddress (s : State) (k : WarpKey) (o : BarOp) : Option BarKey :=
  match s.barKey? k o, s.warp? k with
  | some b, some w => if w.droppedBit o || (s.barrier b).e == 0 then none else some b
  | _, _ => none

/-- An engine's arrival at a core barrier (R170): engines falls, and the arrival is counted. -/
def State.engineArrive (s : State) (g : GroupKey) (index : Nat) : State :=
  let b : BarKey := ⟨g.lid, .core, g.g, index⟩
  let x := s.barrier b
  (s.setBarrier b { x with engines := x.engines - 1 }).countArrival b 0

end Sys2Proof.Machine
end

