-- ==== Sys2Proof/Machine/Translate.lean ====
section
/-! DEFINITION. Translation: the walk of the page tables (R213 to R218), the die TLB and the last-page register (R219). -/

namespace Sys2Proof.Machine

/-- The kinds of access (R216). -/
inductive Kind where
  | read | write | atomic | fetch
  deriving DecidableEq, Repr

/-- What a translation gives: an address with its page, a fault with its reason of R217, or a poisoned table entry. -/
inductive Trans where
  | ok (pa : Nat) (page : LastPage)
  | fault (reason : Nat)
  | poison
  deriving DecidableEq, Repr

/-- Does a leaf's permission allow a kind (R216)? -/
def allows (r w x : Bool) : Kind → Bool
  | .read => r
  | .write => w
  | .atomic => r && w
  | .fetch => x

/-- What a table entry read gives (R216). -/
inductive EntryRead where
  | value (e : Nat)
  | bad
  | poison
  deriving DecidableEq, Repr

/-- Read one 8-byte table entry at a package-local address: a table in a hole or in the control region is malformed. -/
def State.readEntry (s : State) (a : Nat) : EntryRead :=
  match s.region a with
  | .hole | .control => .bad
  | _ => if s.poisoned a 8 then .poison else .value (s.memVal a 8)

/-- The index of a virtual address in a level's table (R213). -/
def levelIndex (va level : Nat) : Nat := va / 2 ^ (16 + 10 * level) % 1024

/-- The upper levels of the walk, from 3 down to 1 (R216): the leaf table, or the fault. -/
def State.walkUpper (s : State) (va : Nat) : Nat → Nat → Trans ⊕ Nat
  | 0, t => .inr t
  | n + 1, t =>
    match s.readEntry (t + 8 * levelIndex va (n + 1)) with
    | .bad => .inl (.fault 2)
    | .poison => .inl .poison
    | .value e =>
      if e % 2 = 0 then .inl (.fault 1)
      else if e / 2 ^ 43 ≠ 0 ∨ e / 2 % 2 ^ 12 ≠ 0 then .inl (.fault 2)
      else s.walkUpper va n (e / 2 ^ 13 % 2 ^ 30 * 2 ^ 13)

/-- Does a leaf extend its run (R218)? -/
def extendsRun (e : Nat) : Bool := e % 2 == 1 && e / 2 ^ 56 == 0
def leafPpn (e : Nat) : Nat := e / 2 ^ 16 % 2 ^ 40
def leafRun (e : Nat) : Nat := e / 2 ^ 4 % 4096

/-- PageFor (R218): the page of index i under the lowest-indexed leaf of the table whose run covers it. The leaves are read from
the lowest on, and one that lies in a poisoned sector raises POISON (R216). -/
def State.pageFor (s : State) (t i : Nat) : EntryRead := scan (List.range (i + 1))
where
  /-- The leaves still to be read. -/
  scan : List Nat → EntryRead
    | [] => .bad
    | j :: l => match s.readEntry (t + 8 * j) with
      | .value e => if extendsRun e && decide (i ≤ j + leafRun e) then .value ((leafPpn e + (i - j)) % 2 ^ 40) else scan l
      | .poison => .poison
      | .bad => scan l

/-- Translate(va, kind) of R216 under a root. -/
def State.walk (s : State) (root va : Nat) (kind : Kind) : Trans :=
  match s.walkUpper va 3 root with
  | .inl r => r
  | .inr t =>
    let i := levelIndex va 0
    match s.readEntry (t + 8 * i) with
    | .bad => .fault 2
    | .poison => .poison
    | .value e =>
      if e % 2 = 0 then .fault 1
      else if e / 2 ^ 56 ≠ 0 then .fault 2
      else
        let (r, w, x) := (e.testBit 1, e.testBit 2, e.testBit 3)
        if !allows r w x kind then .fault 3
        else match s.pageFor t i with
          | .bad => .fault 1
          | .poison => .poison
          | .value p => finish s va ⟨va / 2 ^ 16, p, r, w, x, s.tlbi.gen⟩
where
  /-- The hole check of the package's own addresses (R216). -/
  finish (s : State) (va : Nat) (l : LastPage) : Trans :=
    let pa := l.ppage * 2 ^ 16 + va % 2 ^ 16
    if packageOf pa = s.domid ∧ s.region (localOf pa) = .hole then .fault 4 else .ok pa l

/-- A translation that a last-page register holds (R219). -/
def LastPage.allows (l : LastPage) (va : Nat) (kind : Kind) : Bool :=
  l.vpage == va / 2 ^ 16 && Sys2Proof.Machine.allows l.r l.w l.x kind

/-- Translate an access of a core: from the die's TLB when it holds an allowing entry of the page, else by a walk (R216). -/
def State.translate (s : State) (core root va : Nat) (kind : Kind) : Trans :=
  match (s.die (dieOf core)).tlb.find? (fun e => e.root == root && e.vpage == va / 2 ^ 16 && allows e.r e.w e.x kind) with
  | some e => State.walk.finish s va ⟨e.vpage, e.ppage, e.r, e.w, e.x, s.tlbi.gen⟩
  | none => s.walk root va kind

/-- The same for a fibre's data access: its last-page register comes first (R219). -/
def State.translateFor (s : State) (core root va : Nat) (kind : Kind) (lp : Option LastPage) : Trans :=
  match lp with
  | some l => if l.allows va kind then .ok (l.ppage * 2 ^ 16 + va % 2 ^ 16) l else s.translate core root va kind
  | none => s.translate core root va kind

end Sys2Proof.Machine
end

