-- ==== Sys2Proof/Machine/Finish.lean ====
section
/-! DEFINITION. Launches that finish or are refused (R179, R180): remembered outcomes, completion words, and the refusal of
successors. -/

namespace Sys2Proof.Machine

/-! ## The fabric (R369, R378) -/

/-- Has the fabric a route to a package? -/
def Router.reaches (r : Router) (p : Nat) : Bool := decide (p ≤ 4607) && !r.unreached.contains p
/-- A message to a package; one that cannot be delivered is dropped (R378). -/
def State.sendTo (s : State) (p : Nat) (m : Msg) : State := if s.router.reaches p then s.send m else s
def State.modRouter (s : State) (fn : Router → Router) : State := { s with router := fn s.router }

/-! ## Active launches and completion words (R179, R180) -/

/-- Is a launch identifier queued, waiting or running? -/
def State.isActive (s : State) (lid : Word) : Bool := (s.launch? lid).isSome
/-- Did the latest launch of an identifier end badly, with none by it active (R180)? -/
def State.predFailed (s : State) (r : LaunchRec) : Bool :=
  r.pred.any (fun p => p != 0 && p != r.lid && !s.isActive p && s.front.outcomes.any (fun o => o.1 == p && o.2.1 != 1))

/-- The core number under which the hub's own requests travel. -/
def hubCore : Nat := 1536

/-- The notice of a completion word that cannot be written (R316). -/
def State.wordNotice (s : State) (lid : Word) (done cause reason : Nat) : State :=
  s.note 0 { cause := cause, reason := reason, flags := flagNotice, lid := lid, addr := done }

/-- A request of the hub to another package (R370, R371). -/
def State.hubRequest (s : State) (root : Nat) (lid : Word) (pa done : Nat) (data : List Byte) : State :=
  let p := packageOf pa
  let f := (kget? s.flows (hubCore, p)).getD {}
  let o : PeerOut := { seq := f.seq, key := ⟨lid, 0⟩, num := 0, lane := 0, kind := 1, pa := done, epoch := f.epoch,
                       page := some (root, done / 2 ^ 16) }
  let s := { s with flows := kput s.flows (hubCore, p) { f with seq := (f.seq + 1) % 65536, open_ := f.open_ ++ [o] } }
  s.send (.request p hubCore f.seq f.epoch ⟨1, localOf pa, .exch, .b64, data, false⟩)

/-- Write the completion word: a store to the virtual address done under the launch's root, at that address as it is, also where
done is misaligned and the record is refused for it (DESIGN CHOICE, log entry 117). -/
def State.writeCompletion (s : State) (root : Nat) (lid : Word) (done : DWord) (state code : Nat) : State :=
  if done = 0 then s
  else
    let va := done.toNat
    let word := bytesOf 8 (lid.toNat * 2 ^ 32 + code % 256 * 2 ^ 8 + state)
    if va / 2 ^ 56 ≠ 0 then s.wordNotice lid va 0x11 0
    else match s.translate 0 root va .write with
      | .fault r => s.wordNotice lid va (if r ≤ 2 then 0x10 else 0x11) r
      | .poison => s.wordNotice lid va 0x14 0
      | .ok pa _ =>
        if packageOf pa ≠ s.domid then
          (if s.router.reaches (packageOf pa) then s.hubRequest root lid pa va word else s.wordNotice lid va 0x16 4)
        else match s.region (localOf pa) with
          | .near _ | .far => s.writeOutside (localOf pa) word
          | _ => s.wordNotice lid va 0x11 4

/-- An outcome is remembered: the 1,024 latest, one for each identifier. -/
def State.remember (s : State) (lid : Word) (state code : Nat) : State :=
  let l := s.front.outcomes.filter (fun o => o.1 != lid) ++ [(lid, state, code)]
  { s with front := { s.front with outcomes := l.drop (l.length - 1024) } }

/-- Refuse a record. -/
def State.refuse (s : State) (root : Nat) (r : LaunchRec) (code : Nat) : State :=
  (if code = 0x0B then s else s.remember r.lid 2 code).writeCompletion root r.lid r.done 2 code

/-- The launch leaves the head of a queue. -/
def LaunchQueue.unhead (q : LaunchQueue) (lid : Word) : LaunchQueue := if q.head = some lid then { q with head := none } else q
/-- The launches that wait for a predecessor which ended badly are refused, and those that wait for them in turn. -/
def State.refuseSuccessors : (fuel : Nat) → State → State
  | 0, s => s
  | n + 1, s =>
    match s.launches.find? (fun l => (match l.2.stage with
      | .accepted _ => true
      | _ => false) && s.predFailed l.2.record) with
    | none => s
    | some (lid, l) =>
      let f := s.front
      let s := { s with
        launches := kdel s.launches lid
        front := { f with
          queues := f.queues.map (fun (e : Nat × LaunchQueue) => (e.1, e.2.unhead lid))
          device := f.device.filter (· != lid) } }
      State.refuseSuccessors n (s.refuse l.root l.record 0x0C)

/-- A launch whose groups have all ended leaves nothing behind: its barriers and tags go (R164, R242). -/
def State.forget (s : State) (lid : Word) : State :=
  let s := s.clearTags lid
  { s with launches := kdel s.launches lid, bars := s.bars.filter (fun b => b.1.lid != lid) }

/-- How a launch whose groups have ended finishes: completed, or ended with the cause of its lowest group that ended fatally. -/
def Launch.finished (l : Launch) : Finished :=
  { lid := l.record.lid, root := l.root, done := l.record.done, state := if l.failed.isSome then 3 else 1,
    code := match l.failed with
      | some (_, c) => c.toNat
      | none => 0 }
/-- The launch is finished: its outcome is remembered, its identifier is free, and the successors that this ends are refused. Its
completion word is still to be written. -/
def State.finishLaunch (s : State) (l : Launch) : State :=
  let f := l.finished
  let s := (s.forget f.lid).remember f.lid f.state f.code
  let s : State := { s with front := { s.front with finished := s.front.finished ++ [f] } }
  State.refuseSuccessors (s.launches.length + 1) s

end Sys2Proof.Machine
end

