-- ==== Sys2Proof/Machine/Tiles.lean ====
section
/-! DEFINITION. Tiles: format slots (R289 to R292), the packed image (R277), block-scaled elements (R284 to R288), tile and
ring events (R279, R283), and the matrix step (R303). -/

namespace Sys2Proof.Machine

/-! ## Format slots (R289 to R292) -/

def slotBase (w : Word) : Nat := w.toNat % 16
def slotBsz (w : Word) : Nat := w.toNat / 2 ^ 4 % 4
def slotSloc (w : Word) : Nat := w.toNat / 2 ^ 6 % 4
def slotSstr (w : Word) : Nat := w.toNat / 2 ^ 8 % 16
def slotSat (w : Word) : Bool := w.getLsbD 16
def slotStype (w : Word) : Nat := w.toNat / 2 ^ 18 % 4
/-- The rounding mode of a slot: its code 5 to 7 is reserved. -/
def slotMode (w : Word) : RMode :=
  match w.toNat / 2 ^ 13 % 8 with
  | 1 => .rtz | 2 => .rup | 3 => .rdn | 4 => .rsr | _ => .rne

/-- Is a slot valid (R290)? -/
def slotValid (w : Word) : Bool :=
  let b := slotBase w
  let z := slotBsz w
  w.toNat / 2 ^ 20 == 0 && !w.getLsbD 17 && !w.getLsbD 12 && decide (w.toNat / 2 ^ 13 % 8 < 5) && decide (slotSloc w < 2) &&
  decide (z < 2) && decide (b < 8) &&
  (if b < 3 then z == 0 else if b < 6 then true else z == 1) &&
  (z != 0 || (slotSloc w == 0 && slotSstr w == 0 && slotStype w == 0)) &&
  (!(3 ≤ b && b ≤ 5 && z == 1) || slotStype w == 0) && (b != 7 || slotStype w == 1 || slotStype w == 3)

/-- Does the service level have the slot's format (R291)? -/
def slotAvailable (level : Nat) (w : Word) : Bool :=
  decide (level = 2) || slotBase w == 0 || slotBase w == 2 || (slotBase w == 5 && slotBsz w == 0)

/-- The check of R292. -/
def slotUsable (level : Nat) (w : Word) : Bool := slotValid w && slotAvailable level w

/-- Bits of an element in plane 0 (R291). -/
def planeBits (base : Nat) : Nat :=
  match base with
  | 0 => 32 | 1 | 2 => 16 | 3 | 4 | 5 => 8 | _ => 4
/-- The k-group size of MMA (R302). -/
def kGroup (base : Nat) : Nat :=
  match base with
  | 1 | 2 => 16 | 6 => 64 | _ => 32

/-! ## Geometry (R276, R277) -/

def ctlSlot (w : Word) : Nat := w.toNat % 8
def ctlRows (w : Word) : Nat := w.toNat / 2 ^ 3 % 256
def ctlCols (w : Word) : Nat := w.toNat / 2 ^ 11 % 256
/-- The control-word check of R276. -/
def ctlOk (w : Word) : Bool :=
  w.toNat / 2 ^ 19 == 0 && decide (1 ≤ ctlRows w ∧ ctlRows w ≤ 128) && decide (1 ≤ ctlCols w ∧ ctlCols w ≤ 128)

/-- The shape of a tile: rows, columns and its slot's value. -/
structure Shape where
  rows : Nat
  cols : Nat
  slot : Word
  deriving DecidableEq, Repr

/-- The least power of two that is at least x. -/
def pow2ceil (x : Nat) : Nat := if x ≤ 1 then 1 else 2 ^ (Nat.log2 (x - 1) + 1)

def Shape.plane0 (h : Shape) : Nat := h.rows * h.cols * planeBits (slotBase h.slot) / 8
def Shape.isFp6 (h : Shape) : Bool := slotBase h.slot == 7
def Shape.plane1At (h : Shape) : Nat := pow2ceil h.plane0
def Shape.plane1 (h : Shape) : Nat := if h.isFp6 then h.rows * h.cols / 4 else 0
def Shape.scaled (h : Shape) : Bool := slotBsz h.slot == 1
/-- Where the scale plane begins in the image. -/
def Shape.scaleAt (h : Shape) : Nat := if h.isFp6 then h.plane1At + pow2ceil h.plane1 else pow2ceil h.plane0
def Shape.stride (h : Shape) : Nat := 2 ^ slotSstr h.slot
/-- Size of the scale plane. -/
def Shape.scaleSize (h : Shape) : Nat := if h.scaled then h.rows * h.stride else 0
/-- The image size: the end of the last plane. -/
def Shape.imageSize (h : Shape) : Nat :=
  if h.scaled then h.scaleAt + h.scaleSize else if h.isFp6 then h.plane1At + h.plane1 else h.plane0
/-- The footprint: the image size rounded up to a multiple of 256 bytes. -/
def Shape.footprint (h : Shape) : Nat := (h.imageSize + 255) / 256 * 256
/-- Is a byte of the image padding (R277)? The bytes of a scale-plane row past its C / 32 scale bytes belong to the plane, whose size
the rule gives as R × 2^SSTR: they are no padding, and keep what is written there (DESIGN CHOICE, log entry 156). -/
def Shape.isPadding (h : Shape) (o : Nat) : Bool :=
  !(decide (o < h.plane0) || (h.isFp6 && decide (h.plane1At ≤ o ∧ o < h.plane1At + h.plane1)) ||
    (h.scaled && decide (h.scaleAt ≤ o ∧ o < h.scaleAt + h.scaleSize)))

/-- The step-3 check of R278: columns and row stride of a block-scaled slot. -/
def Shape.blocksOk (h : Shape) : Bool := !h.scaled || (h.cols % 32 == 0 && decide (h.cols / 32 ≤ h.stride))

/-! ## Images as bytes -/

def imgByte (m : NMap Byte) (o : Nat) : Byte := ngetD m 0 o
def imgSet (m : NMap Byte) (o : Nat) (b : Byte) : NMap Byte := nsetD m 0 o b
def imgBytes (m : NMap Byte) (o n : Nat) : List Byte := (List.range n).map (fun i => imgByte m (o + i))
def imgSetBytes (m : NMap Byte) (o : Nat) : List Byte → NMap Byte
  | [] => m
  | b :: l => imgSetBytes (imgSet m o b) (o + 1) l
/-- An image from its bytes. -/
def imgOf (l : List Byte) : NMap Byte :=
  ((List.range l.length).zip l).filter (fun e => e.2 != 0)
/-- The image that the device reads from these bytes: those that are padding are ignored (R277). -/
def Shape.imgOf (h : Shape) (l : List Byte) : NMap Byte := (Machine.imgOf l).filter (fun e => !h.isPadding e.1)

/-- The n-th field of w bits of a plane. -/
def planeField (m : NMap Byte) (at_ w n : Nat) : Nat :=
  ofBytes (imgBytes m (at_ + n * w / 8) ((w + 7) / 8)) / 2 ^ (n * w % 8) % 2 ^ w
/-- The code of element (i, j) (R277, R286). -/
def elemCode (h : Shape) (m : NMap Byte) (i j : Nat) : Nat :=
  let n := i * h.cols + j
  if h.isFp6 then planeField m 0 4 n * 4 + planeField m h.plane1At 2 n
  else planeField m 0 (planeBits (slotBase h.slot)) n
/-- The scale byte of block b of row i. -/
def scaleByte (h : Shape) (m : NMap Byte) (i b : Nat) : Nat := (imgByte m (h.scaleAt + i * h.stride + b)).toNat

/-! ## Element values (R284 to R287) -/

/-- The magnitudes of the sign-magnitude 4-bit types, in eighths, by type and magnitude code (R285). -/
def grid4 (ty : Nat) : List Nat :=
  match ty with
  | 1 => [0, 4, 8, 12, 16, 24, 32, 48]
  | 2 => [0, 1, 2, 4, 8, 16, 32, 64]
  | _ => [0, 8, 16, 24, 32, 48, 64, 96]

/-- D(c) of a 4-bit code (R285). -/
def dec4 (ty c : Nat) : FVal :=
  if ty = 0 then (if c < 8 then .fin false c 0 else .fin true (16 - c) 0)
  else .fin (decide (8 ≤ c)) ((grid4 ty).getD (c % 8) 0) (-3)

/-- The FP6 formats (R286); the NaN field marks a code that does not exist. -/
def noCode : Nat := 0x10000
def e2m3 : Fmt := ⟨2, 3, 1, false, 0x1F, noCode⟩
def e3m2 : Fmt := ⟨3, 2, 3, false, 0x1F, noCode⟩
/-- An FP6 code has no infinity and no NaN (R286). -/
def dec6 (f : Fmt) (c : Nat) : FVal :=
  let neg := c / 32 % 2 == 1
  let e := c / 2 ^ f.fbits % 2 ^ f.ebits
  let fr := c % 2 ^ f.fbits
  if e = 0 then .fin neg fr (1 - (f.bias : Int) - f.fbits)
  else .fin neg (2 ^ f.fbits + fr) ((e : Int) - f.bias - f.fbits)

/-- An integer as a value. -/
def intVal (n : Int) : FVal := .fin (decide (n < 0)) n.natAbs 0
/-- D(c) of a code of a plain format (R287). -/
def decPlain (base c : Nat) : FVal :=
  match base with
  | 0 => fdec f32 c | 1 => fdec f16 c | 2 => fdec bf16 c | 3 => fdec e4m3 c | 4 => fdec e5m2 c
  | _ => intVal (intDec 8 true c)
/-- Scale by 2^k. -/
def FVal.scale (x : FVal) (k : Int) : FVal :=
  match x with
  | .fin s m e => .fin s m (e + k)
  | x => x
/-- The value of a code in a block with a scale byte (R284). -/
def decBlock (base sb c : Nat) : FVal :=
  let ty := sb / 64
  if sb % 64 = 63 then .nan
  else
    let d := match base with
      | 6 => dec4 ty c
      | 7 => if ty = 1 then dec6 e2m3 c else if ty = 3 then dec6 e3m2 c else .nan
      | b => if ty = 0 then decPlain b c else .nan
    d.scale ((sb % 64 : Nat) - 32 : Int)

/-- The decoded value of element (i, j) of an image. -/
def elemVal (h : Shape) (m : NMap Byte) (i j : Nat) : FVal :=
  let c := elemCode h m i j
  if h.scaled then decBlock (slotBase h.slot) (scaleByte h m i (j / 32)) c else decPlain (slotBase h.slot) c

/-! ## Producing elements (R288, R307) -/

/-- The largest finite magnitude of a block element format under STYPE, as m x 2^e (R288). -/
def blockMax (base ty : Nat) : FVal :=
  match base with
  | 6 => match ty with
    | 0 => .fin false 7 0 | 1 => .fin false 6 0 | 2 => .fin false 8 0 | _ => .fin false 12 0
  | 7 => if ty = 1 then .fin false 15 (-1) else .fin false 28 0
  | 3 => .fin false 448 0
  | 4 => .fin false 57344 0
  | _ => .fin false 127 0

/-- |x|. -/
def FVal.mag : FVal → FVal
  | .fin _ m e => .fin false m e
  | .inf _ => .inf false
  | .nan => .nan

/-- m x 2^e in units of 2^u, as kept units and a discarded part. -/
def unitsOf (m : Nat) (e u : Int) : Nat × Nat × Nat :=
  if u ≤ e then (m * 2 ^ (e - u).toNat, 0, 0) else (m / 2 ^ (u - e).toNat, m % 2 ^ (u - e).toNat, (u - e).toNat)

/-- GridRound of a 4-bit type (R288); none where the block becomes a NaN block. -/
def gridRound (ty : Nat) (mode : RMode) (sat : Bool) (g : Word) (y : FVal) : Option Nat :=
  let ends (neg : Bool) : Option Nat :=
    if !sat then none else some (if ty = 0 then (if neg then 8 else 7) else if neg then 15 else 7)
  match y with
  | .nan => none
  | .inf neg => ends neg
  | .fin neg m e =>
    if ty = 0 then
      let top : FVal := .fin false (if neg then 8 else 7) 0
      if top.lt (.fin false m e) then ends neg
      else
        let (t, r, k) := unitsOf m e 0
        let v := if roundUp mode neg t r k g then t + 1 else t
        some (if neg then (16 - v) % 16 else v)
    else
      let l := grid4 ty
      if (FVal.fin false (l.getD 7 0) (-3)).lt (.fin false m e) then ends neg
      else
        let (t, r, k) := unitsOf m e (-3)
        let i := ((List.range 8).filter (fun i => decide (l.getD i 0 ≤ t))).length - 1
        let lo := l.getD i 0
        let d := Nat.log2 (l.getD (i + 1) (lo + 1) - lo)
        let r' := (t - lo) * 2 ^ k + r
        let v := if roundUp mode neg i r' (k + d) g then i + 1 else i
        some ((if neg then 8 else 0) + v)

/-- One code of a block element, given the scaled value. -/
def blockCode (base ty : Nat) (mode : RMode) (sat : Bool) (g : Word) (y : FVal) : Option Nat :=
  match base with
  | 6 => gridRound ty mode sat g y
  | 7 =>
    let c := fround (if ty = 1 then e2m3 else e3m2) mode sat g y
    if c = noCode then none else some c
  | 3 => some (fround e4m3 mode sat g y)
  | 4 => some (fround e5m2 mode sat g y)
  | _ => some ((floatToInt 8 true mode g y % 256).toNat)

/-- Is a value an infinity? -/
def FVal.isInf : FVal → Bool
  | .inf _ => true
  | _ => false

/-- The scale exponent E of a block (R288). -/
def blockExp (base ty : Nat) (xs : List FVal) : Nat :=
  let fins := xs.filter (fun x => !x.isInf && x != .nan)
  let mx := fins.foldl (fun m x => if m.lt x.mag then x.mag else m) (.fin false 0 0)
  if xs.any FVal.isInf then 62
  else if (FVal.fin false 0 0).eq mx then 32
  else ((List.range 63).find? (fun (E : Nat) => !((blockMax base ty).scale ((E : Int) - 32)).lt mx)).getD 62

/-- The scale byte and codes of a block (R288); element n of the block uses the n-th generator state. -/
def makeBlock (base ty : Nat) (mode : RMode) (sat : Bool) (g : Nat → Word) (xs : List FVal) : Nat × List Nat :=
  let nanBlock := (ty * 64 + 63, xs.map (fun _ => 0))
  if xs.any (fun x => x == .nan) || (!sat && xs.any FVal.isInf) then nanBlock
  else
    let E := blockExp base ty xs
    let cs := (List.range xs.length).map fun n =>
      blockCode base ty mode sat (g n) ((xs.getD n .nan).scale (32 - (E : Int)))
    if cs.any Option.isNone then nanBlock else (ty * 64 + E, cs.map (·.getD 0))

/-- One element of a plain format (R39, R45, R307). -/
def plainCode (base : Nat) (mode : RMode) (sat : Bool) (g : Word) (x : FVal) : Nat :=
  match base with
  | 0 => fround f32 mode sat g x
  | 1 => fround f16 mode sat g x
  | 2 => fround bf16 mode sat g x
  | 3 => fround e4m3 mode sat g x
  | 4 => fround e5m2 mode sat g x
  | _ => (floatToInt 8 true mode g x % 256).toNat

/-- Fields of w bits packed upward from bit 0. -/
def packFields (w : Nat) : List Nat → Nat
  | [] => 0
  | c :: l => c % 2 ^ w + 2 ^ w * packFields w l

/-- Bytes padded with zeros to n. -/
def padTo (n : Nat) (l : List Byte) : List Byte := l ++ List.replicate (n - l.length) 0

/-- The image made of row-major codes and, for a block-scaled slot, the scale byte of each block of each row (R277). -/
def packImage (h : Shape) (codes : List Nat) (scales : Nat → Nat → Nat) : NMap Byte :=
  let p0 := bytesOf h.plane0 (if h.isFp6 then packFields 4 (codes.map (· / 4))
    else packFields (planeBits (slotBase h.slot)) codes)
  let p1 := if h.isFp6 then padTo h.plane1At p0 ++ bytesOf h.plane1 (packFields 2 (codes.map (· % 4))) else p0
  let p2 := if h.scaled then padTo h.scaleAt p1 ++
      (List.range h.rows).flatMap (fun i => padTo h.stride
        (((List.range (h.cols / 32)).map (fun b => BitVec.ofNat 8 (scales i b))).take h.stride))
    else p1
  imgOf p2

/-- The image of exact values, rounded with a mode and saturation; element n in row-major order uses the n-th generator state
(R288, R304, R307). -/
def produceImage (h : Shape) (mode : RMode) (sat : Bool) (g : Nat → Word) (v : Nat → Nat → FVal) : NMap Byte :=
  let base := slotBase h.slot
  if h.scaled then
    let blocks := (List.range h.rows).map fun i => (List.range (h.cols / 32)).map fun b =>
      makeBlock base (slotStype h.slot) mode sat (fun n => g (i * h.cols + 32 * b + n))
        ((List.range 32).map (fun n => v i (32 * b + n)))
    packImage h (blocks.flatMap (·.flatMap (·.2))) (fun i b => (((blocks.getD i []).getD b (0, [])).1))
  else
    packImage h ((List.range h.rows).flatMap fun i => (List.range h.cols).map fun j =>
      plainCode base mode sat (g (i * h.cols + j)) (v i j)) (fun _ _ => 0)

/-- The image of TZERO: every code 0 and every scale byte STYPE:32 (R295). -/
def zeroImage (h : Shape) : NMap Byte :=
  packImage h (List.replicate (h.rows * h.cols) 0) (fun _ _ => slotStype h.slot * 64 + 32)

/-! ## Tile events (R279) -/

/-- What an event does now: it is allowed, it makes the warp wait, or it takes TILE_STATE. -/
inductive Allow where
  | yes | wait | trap
  deriving DecidableEq, Repr

def Tile.configAllow (t : Tile) : Allow :=
  match t.state with
  | .empty => .yes
  | .filling => .wait
  | .ready => if t.readers = 0 then .yes else .wait
  | .draining => .trap
def Tile.fillAllow (t : Tile) : Allow :=
  if !t.cfg then .trap
  else match t.state with
    | .empty => .yes
    | .filling => .wait
    | .ready => if t.readers = 0 then .yes else .wait
    | .draining => .trap
def Tile.readAllow (t : Tile) : Allow :=
  if !t.cfg then .trap
  else match t.state with
    | .empty => .trap
    | .filling => .wait
    | .ready => if t.readers < 255 then .yes else .wait
    | .draining => .trap
def Tile.freeAllow (t : Tile) : Allow :=
  if !t.cfg then .trap
  else match t.state with
    | .empty => .yes
    | .filling => .wait
    | .ready => .yes
    | .draining => .trap

/-- An unconfigured, empty tile register. -/
def Tile.cleared : Tile := {}
def Tile.configure (ctl : Word) : Tile := { ctl := ctl, cfg := true }
def Tile.fillIssue (t : Tile) : Tile := { t with state := .filling }
def Tile.fillDone (t : Tile) (img : NMap Byte) : Tile := { t with state := .ready, image := img }
def Tile.fillEnded (t : Tile) : Tile := { t with state := .empty, image := [] }
def Tile.readIssue (t : Tile) : Tile := { t with readers := t.readers + 1 }
def Tile.readDone (t : Tile) : Tile :=
  if t.state = .draining ∧ t.readers ≤ 1 then .cleared else { t with readers := t.readers - 1 }
def Tile.free (t : Tile) : Tile :=
  if t.state = .ready ∧ t.readers ≠ 0 then { t with state := .draining } else .cleared

/-- The tile status word (R280). -/
def TileState.code : TileState → Nat
  | .empty => 0 | .filling => 1 | .ready => 2 | .draining => 3
def Tile.status (t : Tile) : Word :=
  BitVec.ofNat 32 (t.readers % 256 * 256 + (if t.cfg then 4 else 0) + t.state.code)

/-! ## The accumulator ring (R282, R283) -/

def RingState.code : RingState → Nat
  | .free => 0 | .opened => 1 | .full => 2 | .draining => 3
def RingState.ofCode : Nat → RingState
  | 1 => .opened | 2 => .full | 3 => .draining | _ => .free
def Group.slot (g : Group) (i : Nat) : RingSlot := ngetD g.ring {} i
def Group.setSlot (g : Group) (i : Nat) (x : RingSlot) : Group := { g with ring := nsetD g.ring {} i x }
/-- The element (r, c) of a slot, row-major over 64 columns. -/
def RingSlot.elem (x : RingSlot) (r c : Nat) : Word := ngetD x.elems 0 (64 * r + c)
/-- Open (R283). -/
def Group.openRing (g : Group) (accs : Nat) : Group :=
  { g.setSlot g.head { state := .opened } with head := if accs = 0 then 0 else (g.head + 1) % accs }
/-- Close (R283): every earlier accumulation into the slot has completed when an MMA completes, so the slot is full at once. -/
def RingSlot.close (x : RingSlot) : RingSlot := if x.state = .opened then { x with state := .full } else x
/-- Consume completion (R283). -/
def Group.consumed (g : Group) (accs slot : Nat) : Group :=
  { g.setSlot slot {} with tail := if accs = 0 then 0 else (g.tail + 1) % accs }

/-! ## The matrix step (R303) -/

/-- The exponent of a nonzero finite value's leading bit. -/
def FVal.lead : FVal → Int
  | .fin _ m e => (Nat.log2 m : Int) + e
  | _ => 0
/-- A finite value truncated toward zero to a multiple of 2^u, in units of 2^u. -/
def FVal.truncTo (x : FVal) (u : Int) : Int :=
  match x with
  | .fin s m e => let t : Int := (unitsOf m e u).1; if s then -t else t
  | _ => 0

/-- MmaStep(acc, T): the terms are products already formed (R303). -/
def mmaStep (acc : Word) (ts : List FVal) : Word :=
  let a := fdec f32 acc.toNat
  let all := a :: ts
  if all.any (fun x => x == .nan) || (all.any (fun x => x == .inf true) && all.any (fun x => x == .inf false)) then
    BitVec.ofNat 32 f32.nan
  else if all.any (fun x => x == .inf true) then BitVec.ofNat 32 (signed f32 true (infCode f32))
  else if all.any (fun x => x == .inf false) then BitVec.ofNat 32 (infCode f32)
  else
    let z := all.filter (fun x => match x with | .fin _ m _ => m != 0 | _ => false)
    match z with
    | [] => BitVec.ofNat 32 (if all.all FVal.isNeg then 2 ^ 31 else 0)
    | z0 :: zs =>
      let u := zs.foldl (fun m x => max m x.lead) z0.lead - 34
      let sum : Int := (z.map (fun x => x.truncTo u)).foldl (· + ·) 0
      if sum = 0 then 0 else BitVec.ofNat 32 (froundRNE f32 (.fin (decide (sum < 0)) sum.natAbs u))

/-- The accumulation of one vector into element (r, c) (R303). -/
def mmaElement (neg : Bool) (ha hb : Shape) (ia ib : NMap Byte) (r c : Nat) (acc : Word) : Word :=
  let kg := kGroup (slotBase ha.slot)
  let groups := (ha.cols + kg - 1) / kg
  (List.range groups).foldl (fun acc g =>
    mmaStep acc (((List.range kg).map (g * kg + ·)).filter (· < ha.cols) |>.map fun k =>
      let p := (elemVal ha ia r k).mul (elemVal hb ib c k)
      if neg then p.neg else p)) acc

end Sys2Proof.Machine
end

