-- ==== Sys2Proof/Machine/Groups.lean ====
section
/-! DEFINITION. The end of warps, groups and launches (R124, R180, R194, R320), the removal of what they hold, and trap
entry (R312 to R315). -/

namespace Sys2Proof.Machine

/-! ## Commands and locks of a core -/

/-- Remove a command and its range locks (R234, R297). -/
def CoreState.dropCommand (k : CoreState) (n : Nat) : CoreState :=
  { k with cmds := ndel k.cmds n, locks := k.locks.filter (fun l => l.cmd != n) }
/-- The commands of a group on its core. -/
def State.groupCommands (s : State) (g : GroupKey) (c : Nat) : List Command :=
  ((s.core c).cmds.map (·.2)).filter (fun x => s.groupKey x.key == g)
/-- The core on which a group is resident. -/
def State.groupCore (s : State) (g : GroupKey) : Option Nat :=
  match s.group? g with
  | some x => (match x.place with
    | .resident c => some c
    | _ => none)
  | none => none
/-- The groups resident on a core. -/
def State.groupsOn (s : State) (c : Nat) : List GroupKey :=
  (s.groups.filter (fun e => e.2.place == .resident c)).map (·.1)

/-! ## Hints (R338) and faces (R382) -/

/-- A launch's hint on a core returns to 0 when it holds no group there (R338). -/
def State.clearHint (s : State) (c : Nat) (lid : Word) : State :=
  if (s.groupsOn c).any (fun g => g.lid == lid) then s
  else s.modCore c (fun k => { k with hints := kdel k.hints lid, turn := kdel k.turn lid, horizon := kdel k.horizon lid })

/-- Remove faces from every entry of the pending-interest table; an entry left with no face goes (R379, R382, R383). -/
def Router.dropFaces (r : Router) (f : Face → Bool) : Router :=
  { r with pit := (r.pit.map (fun e => (e.1, e.2.filter (fun x => !f x.1)))).filter (fun e => !e.2.isEmpty) }
def Face.ofGroup (s : State) (g : GroupKey) : Face → Bool
  | .consumer k _ => s.groupKey k == g
  | .package _ => false

/-- The pins of these warps are gone, and with them a copy that only they kept (R380, R382). -/
def unpin (f : WarpKey → Bool) (l : List StoredTile) : List StoredTile :=
  (l.map (fun t => { t with pins := t.pins.filter (fun p => !f p.1) })).filter (fun t => t.served || !t.pins.isEmpty)

/-! ## Groups -/

/-- The group and its warps leave the package: resources, commands, locks, faces and hints are freed (R194, R382). -/
def State.removeGroup (s : State) (g : GroupKey) : State :=
  let ks := s.warpsOf g
  let core := s.groupCore g
  let r := s.router.dropFaces (Face.ofGroup s g)
  let store := unpin (fun k => s.groupKey k == g) r.store
  let s := { s with router := { r with store := store } }
  let s := match core with
    | some c => (s.groupCommands g c).foldl (fun (s : State) (x : Command) => s.modCore c (·.dropCommand x.num)) s
    | none => s
  let s := match s.group? g with
    | some q => s.modLaunch g.lid (fun l => if l.widebar then { l with homes := nput l.homes g.g q.home } else l)
    | none => s
  let s := { s with warps := s.warps.filter (fun e => !ks.contains e.1), groups := kdel s.groups g,
                    front := { s.front with poolFull := false } }
  match core with
  | some c => s.clearHint c g.lid
  | none => s

/-- The deques that a launch owns lose their items and their owner when it finishes (R186). -/
def State.dropDeques (s : State) (lid : Word) : State :=
  { s with cores := s.cores.map (fun c => (c.1, if c.2.deque.owner = some lid then { c.2 with deque := {} } else c.2)) }

/-- A group of a launch has ended. When it was the last, the launch is finished, with its completion word to come (R180), and its
deques go. A DET launch's last phase ends (R241, R246). -/
def State.countEnded (s : State) (lid : Word) (fatal : Option (Nat × BitVec 8)) : State :=
  let s := s.modLaunch lid fun l =>
    { l with groupsEnded := l.groupsEnded + 1, failed := (match l.failed, fatal with
        | some a, some b => some (if b.1 < a.1 then b else a)
        | some a, none => some a
        | none, b => b) }
  match s.launch? lid with
  | some l => if l.record.groups ≤ l.groupsEnded then ((s.endPhase lid).dropDeques lid).finishLaunch l else s
  | none => s

/-- A group whose warps have all ended, and whose accesses and commands are complete, is finished (R194): until then it keeps its
scratch, tile bytes, ring slots and core barriers, which they may still use (DESIGN CHOICE, log entry 116). -/
def State.reapGroup (s : State) (g : GroupKey) : State :=
  match s.group? g, s.groupCore g with
  | some _, some c =>
    let ws := (s.warpsOf g).filterMap s.warp?
    if ws.all (fun w => w.ended && w.pend.isEmpty && w.log.isEmpty) &&
        (s.groupCommands g c).all (fun x => x.stage == .ended) then
      (s.removeGroup g).countEnded g.lid none
    else s
  | _, _ => s

/-- A fatal cause ends a group (R320): its warps and commands stop, its gated stores are discarded, a FATAL record with the
fields of `r` is posted and its resources are freed; the launch remembers the cause of the lowest G. -/
def State.endGroup (s : State) (g : GroupKey) (r : FaultRec) : State :=
  match s.group? g with
  | none => s
  | some _ =>
    let c := (s.groupCore g).getD 0
    let r := { r with flags := flagFatal, index := 0, tag := 0, lid := g.lid, place := placeWord c, engrec := 0 }
    let s := s.orphan (((s.group? g).map (·.records)).getD [])
    ((s.note (dieOf c) r).removeGroup g).countEnded g.lid (some (g.g, BitVec.ofNat 8 r.cause))
/-- The same for a cause that no instruction raised. -/
def State.killGroup (s : State) (g : GroupKey) (cause : BitVec 8) (w : Nat) (lanes : List Lane) : State :=
  s.endGroup g { cause := cause.toNat, warp := w, mask := laneMask lanes }

/-- The warp ends when its last fibre has quit (R124, R135). Its tiles stay for the commands that still use them (R279). -/
def State.endWarpIfEmpty (s : State) (k : WarpKey) : State :=
  match s.warp? k with
  | some w => if w.live.isEmpty && !w.ended then
      (s.setWarp k { w with ended := true, sel := none, mask := 0, waiting := .none, alloc := 0, sregs := [] })
    else s
  | none => s

/-! ## Cause codes (R311) -/

def illegalOpcode : BitVec 8 := 0x01
def illegalClause : BitVec 8 := 0x02
def reservedField : BitVec 8 := 0x03
def privileged : BitVec 8 := 0x04
def regEmpty : BitVec 8 := 0x08
def windowOverflow : BitVec 8 := 0x09
def depthOverflow : BitVec 8 := 0x0A
def fibreLimit : BitVec 8 := 0x0B
def pageFault : BitVec 8 := 0x10
def accessFault : BitVec 8 := 0x11
def alignment : BitVec 8 := 0x12
def execFault : BitVec 8 := 0x13
def poisonCause : BitVec 8 := 0x14
def rangeLock : BitVec 8 := 0x15
def remoteFault : BitVec 8 := 0x16
def remoteTimeout : BitVec 8 := 0x17
def unitFailedCause : BitVec 8 := 0x18
def tileState : BitVec 8 := 0x20
def tileShape : BitVec 8 := 0x21
def formatSlot : BitVec 8 := 0x22
def engineFault : BitVec 8 := 0x23
def barrierBusy : BitVec 8 := 0x24
def barrierMembership : BitVec 8 := 0x25
def nameExpired : BitVec 8 := 0x30
def nameRetired : BitVec 8 := 0x31
def detUnsupported : BitVec 8 := 0x38
def detOverflow : BitVec 8 := 0x39
def detConflict : BitVec 8 := 0x3A
def softTrap : BitVec 8 := 0x40
def breakpoint : BitVec 8 := 0x41
def silentError : BitVec 8 := 0x48
def refoldFailed : BitVec 8 := 0x49

/-! ## Traps (R311 to R315) -/

/-- A handler cause with its information (R313). -/
structure Trap where
  cause : BitVec 8
  reason : Nat := 0
  deferred : Bool := false
  indet : Bool := false
  info0 : Word := 0
  info1 : Word := 0
  deriving DecidableEq, Repr

/-- The TRCAUSE word (R313). -/
def Trap.word (t : Trap) : Word :=
  BitVec.ofNat 32 (t.cause.toNat + (if t.deferred then 256 else 0) + t.reason % 8 * 512 + (if t.indet then 4096 else 0))

/-- Handler entry of one fibre (R97, R312): the flag and the trap registers are set and the fibre stands at the handler. -/
def Fibre.enterHandler (f : Fibre) (t : Trap) (pc hdr handler : Word) : Fibre :=
  { f with
    handler := true
    tr := { cause := t.word, info0 := t.info0, info1 := t.info1, pc := pc, hdr := hdr }
    pc := handler, hdr := handler, inside := false, body := [], refetch := false }

/-- The address that a cause carries in TRINFO0 and TRINFO1 (R313, R373), if it carries one. -/
def Trap.addr (t : Trap) : Nat :=
  if t.cause ∈ [pageFault, accessFault, alignment, execFault, rangeLock, detUnsupported, detOverflow, detConflict] then
    t.info0.toNat + t.info1.toNat * 2 ^ 32
  else if t.cause ∈ [remoteFault, remoteTimeout] then t.info0.toNat + t.info1.toNat % 2 ^ 24 * 2 ^ 32
  else 0
/-- The FATAL record of a handler cause that ends its group (R316, R320). -/
def Trap.fatal (t : Trap) (w : Nat) (l : Lane) (pc hdr : Word) : FaultRec :=
  { cause := t.cause.toNat, reason := t.reason % 8, warp := w, mask := laneMask [l], addr := t.addr, pc := pc, hdr := hdr }
/-- A handler cause in one fibre (R312, R314): handler entry, or the end of the group. `pc` and `hdr` become TRPC and
TRHDR. -/
def State.takeTrapAt (s : State) (k : WarpKey) (l : Lane) (t : Trap) (pc hdr : Word) : State :=
  match s.launch? k.lid, s.fibre? k l with
  | some la, some f =>
    if !la.hdlr || f.handler then s.endGroup (s.groupKey k) (t.fatal k.w l pc hdr)
    else s.modFibre k l (fun f => f.enterHandler t pc hdr la.record.handler)
  | _, _ => s

/-- A handler cause of the word, or of the header, at which the fibre stands (R313). -/
def State.takeTrap (s : State) (k : WarpKey) (l : Lane) (t : Trap) : State :=
  match s.fibre? k l with
  | some f => s.takeTrapAt k l t f.pc f.hdr
  | none => s

/-- The same trap in several fibres, in ascending lane. -/
def State.takeTraps (s : State) (k : WarpKey) (ls : List Lane) (t : Lane → Trap) : State :=
  ls.foldl (fun s l => s.takeTrap k l (t l)) s

/-- A deferred cause becomes known for a fibre (R315). -/
def Warp.defer (w : Warp) (num : Nat) (l : Lane) (d : Deferred) : Warp :=
  w.complete num l (fun f => { f with causes := f.causes ++ [d] })

/-- The causes a fibre must take before an instruction: the recorded cause, when the instruction is a delivery point of
it (R315). -/
def Deferred.trap (d : Deferred) : Trap :=
  { cause := d.cause, reason := d.reason, deferred := true, indet := d.indet, info0 := d.info0, info1 := d.info1 }


end Sys2Proof.Machine
end

