-- ==== Sys2Proof/Machine/Retire.lean ====
section
/-! DEFINITION. What a core can hold (R137, R184, R202), and the retirement of its units (R205, R333, R335, R336). -/

namespace Sys2Proof.Machine

/-! ## Capacity -/

/-- Register entries in service (R137). -/
def CoreState.entries (k : CoreState) : Nat := 2048 * (List.range 32).countP (fun b => !k.retiredBanks.getLsbD b)

/-- What a group takes of a core (R184), and the command numbers and range locks that its stopped commands keep (R234, R297). -/
structure Needs where
  warps : Nat := 0
  entries : Nat := 0
  scratch : Nat := 0
  tiles : Nat := 0
  accs : Nat := 0
  cmds : Nat := 0
  locks : Nat := 0
  deriving DecidableEq, Repr

def Needs.add (a b : Needs) : Needs :=
  ⟨a.warps + b.warps, a.entries + b.entries, a.scratch + b.scratch, a.tiles + b.tiles, a.accs + b.accs, a.cmds + b.cmds, a.locks + b.locks⟩
/-- Do these needs fit in a core that is otherwise empty (R137, R202, R282)? R184 does not name commands and range locks among
what a group that comes back needs; a core never holds more than 32 of either (DEDUCED, log entry 135). -/
def Needs.within (n : Needs) (k : CoreState) : Bool :=
  decide (n.warps ≤ 32) && decide (n.entries ≤ k.entries) && decide (n.scratch ≤ 16384 * k.banks 1) &&
  decide (n.tiles ≤ 16384 * k.banks 2) && decide (n.accs ≤ 16) && decide (n.cmds ≤ 32) && decide (n.locks ≤ 32)

/-- What a resident group holds now: ended warps hold no place and no entries (R124, R194). -/
def State.held_ (s : State) (g : GroupKey) : Needs :=
  match s.launch? g.lid with
  | none => {}
  | some l =>
    let ws := ((s.warpsOf g).filterMap s.warp?).filter (fun w => !w.ended)
    { warps := ws.length, entries := (ws.map (fun w => l.width * w.alloc)).foldl (· + ·) 0, scratch := l.record.scratch,
      tiles := l.record.tiles, accs := l.record.accs }
/-- What the groups of a core hold, with its commands and their locks. -/
def State.coreHolds (s : State) (c : Nat) : Needs :=
  { (s.groupsOn c).foldl (fun (n : Needs) g => n.add (s.held_ g)) {} with
    cmds := (s.core c).cmds.countP (fun e => decide (e.1 < 32)), locks := (s.core c).locks.length }

/-- The key of a group: class, lid, G (R205). -/
def State.groupRank (s : State) (g : GroupKey) : Nat :=
  (((s.launch? g.lid).map (·.record.cls % 4)).getD 0 * 2 ^ 32 + g.lid.toNat) * 2 ^ 48 + g.g

/-! ## Swap-out requests (R204, R321) -/

/-- A group must leave its core, its whole gang with it: its warps stop at their next pre-emption points. -/
def State.requestSwap (s : State) (g : GroupKey) : State :=
  match s.launch? g.lid with
  | none => s
  | some l => (l.gangGroups (l.gangOf g.g)).foldl (fun s i => s.modGroup ⟨g.lid, i⟩ (fun q => match q.place with
    | .resident _ => { q with stopping := true }
    | _ => q)) s

/-! ## Live lanes and pairs (R138, R333) -/

/-- Live ALU lanes of a core. -/
def CoreState.liveLanes (k : CoreState) : List Nat :=
  (List.range 32).filter (fun l => !k.retiredLanes.getLsbD l && k.liveGroups.getLsbD (l / 8))
/-- P of R333. -/
def CoreState.pairs (k : CoreState) : Nat :=
  let l := k.liveLanes
  let m := (List.range 4).foldl (fun m g => max m (l.countP (fun x => x / 8 == g))) 0
  min (l.length / 2) (l.length - m)

/-- Pairs of lanes at a distance in a list. -/
def pairsAt (l : List Nat) (d n : Nat) : List (Nat × Nat) := (List.range n).map (fun i => (l.getD i 0, l.getD (i + d) 0))
/-- The lane pairs of protected mode (R140, R333): with every lane live, the primary 2j and the shadow (2j + 9) mod 32; else P
pairs over two lane groups each, which the model chooses: the lanes of one group with the others when it holds more than half of
them, and lanes half the list apart otherwise (DESIGN CHOICE, log entry 114). -/
def CoreState.lanePairs (k : CoreState) : List (Nat × Nat) :=
  let l := k.liveLanes
  if l.length = 32 then (List.range 16).map (fun j => (2 * j, (2 * j + 9) % 32))
  else match (List.range 4).find? (fun g => decide (l.length / 2 < l.countP (fun x => x / 8 == g))) with
    | some g => ((l.filter (fun x => x / 8 == g)).zip (l.filter (fun x => x / 8 != g))).take k.pairs
    | none => pairsAt l (l.length / 2) k.pairs
/-- The steering tables of a core (R139, R140). -/
def CoreState.steering (k : CoreState) : Steering := ⟨k.liveLanes, k.lanePairs⟩
/-- Where a logical lane issues in normal mode: its beat and its ALU lane (R139). -/
def Steering.normal (t : Steering) (l : Lane) : Nat × Nat := (l / t.lanes.length, t.lanes.getD (l % t.lanes.length) 0)
/-- Where a logical lane issues in protected mode: its beat and its pair of ALU lanes (R140). -/
def Steering.prot (t : Steering) (l : Lane) : Nat × (Nat × Nat) := (l / t.pairs.length, t.pairs.getD (l % t.pairs.length) (0, 0))
/-- The beats of an issue (R139, R140). -/
def Steering.beats (t : Steering) (prot : Bool) : Nat :=
  if prot then (32 + t.pairs.length - 1) / t.pairs.length else (64 + t.lanes.length - 1) / t.lanes.length
/-- The table that a warp issues on: its core's, or the one it has still to leave (R142). -/
def State.steeringOf (s : State) (k : WarpKey) : Steering :=
  ((s.warp? k).bind (·.oldSteering)).getD (s.core (s.coreNo k)).steering
/-- Does an ALU lane of a core serve a warp: it is live, or a warp there has still to adopt the table without it (R142)? -/
def State.laneInService (s : State) (c lane : Nat) : Bool :=
  (s.core c).liveLanes.contains lane || ((s.groupsOn c).flatMap s.warpsOf).any (fun k => (s.steeringOf k).lanes.contains lane)

/-- A core changes so that its steering tables are rewritten: each of its warps keeps the table it issues on until it adopts the
new one (R142). -/
def State.resteer (s : State) (c : Nat) (fn : CoreState → CoreState) : State :=
  let old := (s.core c).steering
  (s.groupsOn c).foldl (fun s g => (s.warpsOf g).foldl (fun s k =>
    s.modWarp k (fun w => { w with oldSteering := some (w.oldSteering.getD old) })) s) (s.modCore c fn)

/-- With no pair left, every protected group of the core ends (R333). -/
def State.checkPairs (s : State) (c : Nat) : State :=
  if (s.core c).pairs ≠ 0 then s
  else (s.groupsOn c).foldl (fun s g =>
    if ((s.launch? g.lid).map (·.prot)).getD false then
      s.killGroup g refoldFailed (((s.warpsOf g).head?).map (·.w) |>.getD 0) [] else s) s

/-- The groups of a core that no longer fit, by a measure and its limit: each is kept that fits after those kept before it
in ascending key (R205). -/
def State.keepFitting (s : State) (c : Nat) (fits : Needs → Bool) : State :=
  ((sortBy s.groupRank (s.groupsOn c)).foldl (fun (acc : State × Needs) g =>
    let n := acc.2.add (s.held_ g)
    if fits n then (acc.1, n) else (acc.1.requestSwap g, acc.2)) (s, {})).1

/-- Groups leave in descending key until the register entries of the rest fit (R336). -/
def State.dropToFit (s : State) (c : Nat) : State :=
  ((sortBy s.groupRank (s.groupsOn c)).reverse.foldl (fun (acc : State × Nat) g =>
    if acc.2 ≤ (s.core c).entries then acc
    else (acc.1.requestSwap g, acc.2 - (s.held_ g).entries)) (s, (s.coreHolds c).entries)).1

/-! ## Retirement of a core's unit (R335, R336) -/

/-- Set the role of a bank. A core left with no L1 bank holds no copy (R202). -/
def CoreState.setRole (k : CoreState) (b role : Nat) : CoreState :=
  let k := if b < 16 then { k with roleLo := BitVec.ofNat 32 (k.roleLo.toNat - k.role b * 4 ^ b + role * 4 ^ b) }
    else { k with roleHi := BitVec.ofNat 32 (k.roleHi.toNat - k.role b * 4 ^ (b - 16) + role * 4 ^ (b - 16)) }
  if k.banks 0 = 0 then { k with l1 := [] } else k

/-- The steps of a retirement, by kind: 0 an ALU lane, 1 a register bank, 2 an SRAM bank, 3 a matrix column. -/
def State.retireSteps (s : State) (c kind unit : Nat) : State :=
  match kind with
  | 0 => (s.resteer c (fun k => { k with retiredLanes := k.retiredLanes ||| BitVec.ofNat 32 (2 ^ unit) })).checkPairs c
  | 1 => (s.resteer c (fun k => { k with retiredBanks := k.retiredBanks ||| BitVec.ofNat 32 (2 ^ unit) })).dropToFit c
  | 2 =>
    let role := (s.core c).role unit
    let s := s.modCore c (·.setRole unit 3)
    if role = 1 then s.keepFitting c (fun n => decide (n.scratch ≤ 16384 * (s.core c).banks 1))
    else if role = 2 then s.keepFitting c (fun n => decide (n.tiles ≤ 16384 * (s.core c).banks 2))
    else s
  | _ => s.modCore c (fun k => { k with retiredCols := k.retiredCols ||| BitVec.ofNat 16 (2 ^ unit) })

/-- Is the unit already retired? -/
def CoreState.isRetired (k : CoreState) (kind unit : Nat) : Bool :=
  match kind with
  | 0 => k.retiredLanes.getLsbD unit
  | 1 => k.retiredBanks.getLsbD unit
  | 2 => k.role unit == 3
  | _ => k.retiredCols.getLsbD unit

/-- The retirement begins: a unit of a core by its steps, and a slice or channel by the reassignment of its buckets (R209). An
injected retirement is not written to the Maar map (R337). -/
def State.beginRetirement (s : State) (r : Retirement) : State :=
  let s := { s with retiring := some r }
  match r with
  | .unit c kind unit =>
    if (s.core c).isRetired kind unit then s
    else
      let injected := (s.core c).failing.contains ⟨kind, unit⟩
      let s := s.retireSteps c kind unit
      if injected then s else { s with retirementMap := s.retirementMap ++ [(kind, 32 * c + unit, false)] }
  | .table t u => s.reassign t u

/-- Has a retirement run its steps (R336): every warp of the core has adopted its new table, the groups that no longer fit have
left, or the table has no bucket left to move? -/
def State.retirementOver (s : State) (r : Retirement) : Bool :=
  match r with
  | .table t _ => (s.evacuating t).isNone
  | .unit c kind _ =>
    let adopted := ((s.groupsOn c).flatMap s.warpsOf).all (fun k => ((s.warp? k).bind (·.oldSteering)).isNone)
    let n := s.coreHolds c
    match kind with
    | 0 => adopted
    | 1 => adopted && decide (n.entries ≤ (s.core c).entries)
    | 2 => decide (n.scratch ≤ 16384 * (s.core c).banks 1) && decide (n.tiles ≤ 16384 * (s.core c).banks 2)
    | _ => true
/-- May a retirement begin: no other runs (R335), and its table has no evacuation under way (R209)? -/
def State.mayRetire (s : State) (r : Retirement) : Bool :=
  (s.retiring.map s.retirementOver).getD true && (match r with
    | .table t _ => (s.evacuating t).isNone
    | .unit .. => true)
/-- The retirement that has waited longest begins, if it may. -/
def State.nextRetirement (s : State) : State :=
  match s.retirements with
  | [] => s
  | r :: l => if s.mayRetire r then ({ s with retirements := l } : State).beginRetirement r else s
/-- A retirement arrives: it waits for those before it (R335). -/
def State.queueRetirement (s : State) (r : Retirement) : State :=
  ({ s with retirements := s.retirements ++ [r] } : State).nextRetirement
/-- A unit of a core is to retire. -/
def State.retire (s : State) (c kind unit : Nat) : State :=
  if (s.core c).isRetired kind unit || s.retirements.contains (.unit c kind unit) then s
  else s.queueRetirement (.unit c kind unit)

/-- The number by which a free value names a unit of a core. -/
def unitNumber (kind unit : Nat) : Nat := 32 * kind + unit
/-- Does a unit fail its self-check now: by injection (R337), or as the part itself has it (a free value)? -/
def State.failsCheck (s : State) (c kind unit : Nat) : Bool :=
  (s.core c).failing.contains ⟨kind, unit⟩ || Config.selfCheckFails s.tick c (unitNumber kind unit)

/-- The units of the selected lane groups that fail: lanes, then banks (R339). -/
def State.failedLanes (s : State) (c : Nat) (groups : Nat) (kind : Nat) : List Nat :=
  (List.range 32).filter fun u =>
    groups.testBit (u / 8) && (s.core c).liveGroups.getLsbD (u / 8) && !(s.core c).isRetired kind u && s.failsCheck c kind u

end Sys2Proof.Machine
end

