-- ==== Sys2Proof/Machine/Inject.lean ====
section
/-! DEFINITION. Fault injection: what an armed event does when it fires (R337). -/

namespace Sys2Proof.Machine

/-- Is UNIT in range for EVENT (R337)? A reserved EVENT has none. -/
def injectRange (event unit : Nat) : Bool :=
  match event with
  | 1 | 2 | 3 => decide (unit < 32)
  | 4 => decide (unit < 16)
  | 5 => decide (unit < 96)
  | 6 => decide (unit < 64)
  | 7 | 8 => unit == 0
  | _ => false

/-! ## The loss of a slice or channel (R209, R211, R212) -/

/-- The units of a table whose retirements wait. -/
def State.unitsLeaving (s : State) (t : TableId) : List Nat :=
  s.retirements.filterMap (fun r => match r with
    | .table t' u => if t' = t then some u else none
    | .unit .. => none)
/-- Can the table absorb the loss of a unit: another slice stays, or the spare of the channels still suffices? At S1 die 0
has 32 channels and absorbs one loss among them. -/
def State.absorbs (s : State) (t : TableId) (u : Nat) : Bool :=
  let out := s.unitsOut t ++ s.unitsLeaving t
  match t with
  | .slice _ => decide (out.length + 1 < 96)
  | .channel _ => decide (out.length < 3) && !(s.onS1 t && decide (u < 32) && out.any (fun v => decide (v < 32)))
  | .far => decide (out.length < 3)
/-- The reason of UNIT_FAILED, and the die whose queue takes the notice. -/
def failReason : TableId → Nat × Nat
  | .channel d => (1, d.val)
  | .far => (2, 0)
  | .slice d => (3, d.val)
/-- The die of a table, 0 for the far-channel table. -/
def tableDie : TableId → Nat
  | .slice d | .channel d => d.val
  | .far => 0
/-- The notice of a unit that fails (R316). -/
def failNotice (t : TableId) (u : Nat) : FaultRec :=
  { cause := unitFailedCause.toNat, reason := (failReason t).1, flags := flagNotice, addr := u, place := tableDie t * 2 ^ 30 }
/-- Is the unit out of service, on its way out, or failed? -/
def State.unitGone (s : State) (t : TableId) (u : Nat) : Bool :=
  (s.unitsOut t).contains u || (s.unitsFailed t).contains u || (s.unitsLeaving t).contains u
/-- The number that the retirement map gives a kind of unit: 4 slices, 5 near channels, 6 far channels. -/
def tableKind : TableId → Nat
  | .slice _ => 4
  | .channel _ => 5
  | .far => 6
/-- An entry of the Maar retirement map (R335). -/
def State.mapUnit (s : State) (t : TableId) (u : Nat) (failed : Bool) : State :=
  { s with retirementMap := s.retirementMap ++ [(tableKind t, unitCount t * tableDie t + u, failed)] }
/-- A unit drops out and its buckets move (R209); one that cannot be spared fails, and a notice says so (R211). An injected
loss is not written to the map (R337). -/
def State.loseUnit (s : State) (t : TableId) (u : Nat) (injected : Bool) : State :=
  if s.unitGone t u || decide (unitCount t ≤ u) then s
  else if s.absorbs t u then
    let s := s.queueRetirement (.table t u)
    if injected then s else s.mapUnit t u false
  else
    let s := (s.addFailed t u).note (failReason t).2 (failNotice t u)
    if injected then s else s.mapUnit t u true

/-- The report of a droop of a cluster (R331): how many of each warp's last issues are suspect is a free value. It is the next
event. -/
def State.droop (s : State) (cluster : Nat) : State :=
  let suspect := (s.warps.filter (fun e => (s.coreOf e.1).map clusterOf = some cluster)).map
    (fun e => (e.1.lid, e.1.w, e.2.issues - Config.suspectIssues s.tick e.1.lid e.1.w))
  { s with agenda := .event (.droopReport cluster suspect) :: s.agenda }

/-- The event fires on the warp's core, on its cluster for event 7, or on die DIE for events 5 and 6 (R337). -/
def State.fire (s : State) (k : WarpKey) (i : Inject) : State :=
  let c := s.coreNo k
  match i.event with
  | 1 => s.modCore c (fun q => { q with failing := ⟨0, i.unit⟩ :: q.failing })
  | 2 => s.modCore c (fun q => { q with failing := ⟨1, i.unit⟩ :: q.failing })
  | 3 => s.modCore c (fun q => { q with failing := ⟨2, i.unit⟩ :: q.failing })
  | 4 => s.modCore c (fun q => { q with badColumn := some i.unit, failing := ⟨3, i.unit⟩ :: q.failing })
  | 5 => s.loseUnit (.slice (Fin.ofNat 4 i.die)) i.unit true
  | 6 => s.loseUnit (.channel (Fin.ofNat 4 i.die)) i.unit true
  | 7 => s.droop (clusterOf c)
  | 8 => s.modWarp k (fun w => { w with mismatches := some 0 })
  | _ => s

/-- After an issue that raised the retired count: an armed event whose launch, warp and count match fires, ARM clears and
FIRED sets (R337). -/
def State.checkInject (s : State) (k : WarpKey) (retired : Nat) : State :=
  let i := s.inject
  if i.arm && i.lid == k.lid && i.warp.toNat == k.w && i.cntHi.toNat * 2 ^ 32 + i.cntLo.toNat == retired then
    ({ s with inject := { i with arm := false, fired := true } } : State).fire k i
  else s

end Sys2Proof.Machine
end

