-- ==== Sys2Proof/Machine/Operands.lean ====
section
/-! DEFINITION. Operands: which entries an instruction reads and writes, with their operand bits (R19 to R21, R31, R58). -/

namespace Sys2Proof.Machine

/-- One register operand: a v or s field, how many entries it names, and its operand bit (R19, R31). -/
structure Operand where
  isS : Bool := false
  reg : Nat
  count : Nat := 1
  bit : Bool := false
  /-- The lane whose window a v field names: the fibre's own, or READLANE's source lane (R163). -/
  lane : Option Lane := none
  deriving DecidableEq, Repr

/-- What an instruction reads, in encoding order, and what it writes (R19, R20); and the tiles that its words name (R315). -/
structure Uses where
  src : List Operand := []
  dst : List Operand := []
  tiles : List Nat := []
  deriving DecidableEq, Repr

/-- A v operand. -/
def vop (r : Reg) (bit : Bool := false) (n : Nat := 1) : Operand := { reg := r.val, bit := bit, count := n }
/-- An s operand. -/
def sop (r : Reg) (bit : Bool := false) (n : Nat := 1) : Operand := { isS := true, reg := r.val, bit := bit, count := n }

/-- The fibre whose window an operand names; a lane that holds none has no entry to wait for (R163). -/
def Operand.of (o : Operand) (w : Warp) (f : Fibre) : Fibre :=
  match o.lane with
  | none => f
  | some l => (w.fibre? l).getD { pc := 0, hdr := 0, gen := 0 }

/-- Is some entry of an operand empty, for a fibre of a warp? -/
def Operand.isEmpty (o : Operand) (w : Warp) (f : Fibre) : Bool :=
  (List.range o.count).any fun i =>
    if o.isS then !(ngetD w.sregs Entry.zero (o.reg + i)).full else !((o.of w f).entry ((o.of w f).wb + o.reg + i)).full

/-- The first operand whose operand bit is 1 and that is empty, with its position (R19, step 1; R313). -/
def firstTrapping (w : Warp) (f : Fibre) : Nat → List Operand → Option (Nat × Operand)
  | _, [] => none
  | n, o :: l => if o.bit && o.isEmpty w f then some (n, o) else firstTrapping w f (n + 1) l

/-- Must the fibre wait on a source or a destination (R19, step 2; R20)? -/
def Uses.waits (u : Uses) (w : Warp) (f : Fibre) : Bool :=
  u.src.any (·.isEmpty w f) || u.dst.any (·.isEmpty w f)

/-- Does the instruction read one of these absolute entries of the fibre in a lane (R315)? -/
def Uses.reads (u : Uses) (l : Lane) (f : Fibre) (es : List Nat) : Bool :=
  u.src.any fun o => !o.isS && o.lane.all (· == l) && (List.range o.count).any (fun i => es.contains (f.wb + o.reg + i))

/-! ## The formats -/

/-- F-A: va and vb read, vd written. -/
def usesA (f : FmtA) (nd na nb : Nat) : Uses := { src := [vop f.a f.fa na, vop f.b f.fb nb], dst := [vop f.d false nd] }
/-- F-A whose vd is read as well, as an accumulator. -/
def usesAcc (f : FmtA) : Uses := { src := [vop f.a f.fa, vop f.b f.fb, vop f.d], dst := [vop f.d] }
/-- F-A without vb. -/
def usesU (f : FmtU) (nd na : Nat) : Uses := { src := [vop f.a f.fa na], dst := [vop f.d false nd] }
/-- F-B: an immediate in place of vb; its source has bit 0 (R19). -/
def usesB (f : FmtB) : Uses := { src := [vop f.a], dst := [vop f.d] }
/-- The base pair and the offset of F-M (R128). -/
def usesMem (sbase vo : Reg) (fa : Bool) : List Operand := [vop vo fa, sop sbase false 2]

end Sys2Proof.Machine
end

