-- ==== Sys2Proof/Machine/Ops.lean ====
section
/-! DEFINITION. The issue of one instruction for one issuing set: the choice of the set (R144 to R147), the checks that come
before every instruction (R17 to R21, R64, R315), what an instruction may do then, and the accounting after it (R55, R95,
R144, R330). -/

namespace Sys2Proof.Machine

/-! ## The choice of the issuing set (R144) -/

/-- The key of a fibre: depth, PC, and b (R144). -/
structure FibreKey where
  depth : Nat
  pc : Word
  atHeader : Bool
  deriving DecidableEq, Repr

def Fibre.key (f : Fibre) : FibreKey := ⟨f.depth, f.pc, !f.inside⟩

/-- Precedence of keys (R144). -/
def FibreKey.precedes (a b : FibreKey) : Bool :=
  decide (b.depth < a.depth) ||
  (a.depth == b.depth && (decide (a.pc.toNat < b.pc.toNat) || (a.pc == b.pc && !a.atHeader && b.atHeader)))

/-- Insert a key into a list in precedence order, once. -/
def insertKey (k : FibreKey) : List FibreKey → List FibreKey
  | [] => [k]
  | a :: l => if a = k then a :: l else if k.precedes a then k :: a :: l else a :: insertKey k l

/-- The distinct keys of the live fibres, in precedence order. -/
def Warp.keys (w : Warp) : List FibreKey := w.slots.foldl (fun acc e => insertKey e.2.key acc) []

/-- Issue() up to the choice of S (R144, R146, R147): the set, and the serial flag after its first test. -/
def Warp.choose (w : Warp) : Option (Sel × Bool) :=
  let ks := w.keys
  let serial := w.serial && decide (4 < ks.length)
  let escort := w.c == 2048 && decide (2 ≤ ks.length)
  match (if escort then ks[1]? else ks[0]?) with
  | none => none
  | some key =>
    let set := (w.slots.filter (fun e => e.2.key == key)).map (·.1)
    let set := if serial then set.take 1 else set
    some ({ chosen := set, lanes := set, escort := escort, all := set.length == w.slots.length }, serial)

/-- C, Q and the serial flag after an issue of the chosen set (R144, R146). -/
def WarpArch.afterIssue (a : WarpArch) (sel : Sel) (keysNow : Nat) : WarpArch :=
  { a with
    c := if sel.escort || sel.all then 0 else if sel.chosen = a.q then a.c + 1 else 1
    q := sel.chosen
    serial := a.serial || decide (9 ≤ keysNow) }

/-! ## Moving through a clause -/

/-- The fibre goes on to the word after its instruction; past the last word it stands at the next header (R52, R55). -/
def Fibre.advance (f : Fibre) (len : Nat) : Fibre :=
  let pc := f.pc + BitVec.ofNat 32 len
  if (pc - f.hdr).toNat ≤ f.body.length then { f with pc := pc }
  else { f with pc := pc, hdr := pc, inside := false, body := [], refetch := false }

/-- The fibre transfers to a header (R52, R55). -/
def Fibre.goto (f : Fibre) (pc : Word) : Fibre := { f with pc := pc, hdr := pc, inside := false, body := [], refetch := false }

/-! ## An instruction at work -/

/-- What an instruction sees: its warp's key, the fibres that act, the issue, and the warp as it stood. -/
structure Ctx where
  key : WarpKey
  /-- The lanes of the issuing set that have not left it. -/
  lanes : List Lane
  /-- Those of them whose guard is true. -/
  active : List Lane
  iss : Issue
  w : Warp

/-- The fibre of a lane; every lane of a set holds one. -/
def Ctx.fibre (x : Ctx) (l : Lane) : Fibre := (x.w.fibre? l).getD { pc := 0, hdr := 0, gen := 0 }
/-- The active fibres, ascending. -/
def Ctx.fibres (x : Ctx) : List (Lane × Fibre) := x.active.map (fun l => (l, x.fibre l))
/-- What an instruction answers: it is done (the new state, the lanes that do not go on to the next word, whether it
completed in some fibre or none had to act, and whether an effect of it has left the core already), or its warp waits with
the lanes that have not left the set. -/
inductive Act where
  | done (s : State) (moved : List Lane) (completed held : Bool)
  | wait (s : State) (gone : List Lane)

/-- The common answer: every lane goes on. -/
def Act.next (s : State) : Act := .done s [] true false

/-- A lane leaves an operand-log entry, which is freed when no lane remains in it (R223, R373). -/
def dropLane (m : NMap LogEntry) (i : Nat) (l : Lane) : NMap LogEntry :=
  match nget? m i with
  | none => m
  | some e =>
    let ls := e.mask.filter (· != l)
    if ls.isEmpty then ndel m i else nput m i { e with mask := ls }

/-- Would a cause make an entry full again whose contents a steering move lost? No producer overwrites it then: the poisoned
register ends the group (R143, R334). -/
def Fibre.refillsLost (f : Fibre) (d : Deferred) : Bool :=
  match d.source with
  | .access es => es.any f.lost.contains
  | _ => false

/-- The named-tile cause that an acting fibre takes before an instruction on that tile. -/
def Ctx.tileCause (x : Ctx) (uses : Uses) : Option Deferred :=
  x.fibres.findSome? (fun e => match e.2.causes with
    | [] => none
    | d :: _ => (match d.source with
      | .namedTile t => if uses.tiles.contains t then some d else none
      | _ => none))

/-- Each acting fibre for which the instruction is a delivery point takes its recorded cause (R315); answers the lanes that took one.
Destination entries of the cause's access become full again; an ended command gives up its number. What a move of the entries lost
cannot become full again. -/
def State.deliverOwn (s : State) (x : Ctx) (point : Bool) (uses : Uses) : State × List Lane :=
  x.fibres.foldl (fun acc e =>
    match e.2.causes with
    | [] => acc
    | d :: rest =>
      let here := point || (match d.source with
        | .access es => uses.reads e.1 e.2 es
        | _ => false)
      if !here then acc
      else if e.2.refillsLost d then (acc.1.killGroup (acc.1.groupKey x.key) poisonCause x.key.w [e.1], acc.2 ++ [e.1])
      else
        let s := acc.1.modFibre x.key e.1 fun f =>
          let f := { f with causes := rest }
          match d.source with
          | .access es => es.foldl Fibre.refill f
          | _ => f
        let s := match d.log with
          | some i => s.modWarp x.key (fun w => { w with log := dropLane w.log i e.1 })
          | none => s
        let s := match d.source with
          | .command n => s.modCore (s.coreNo x.key) (·.dropCommand n)
          | .namedTile t => s.modWarp x.key (fun w => w.setTile t { w.tile t with cause := none })
          | .access _ => s
        (s.takeTrap x.key e.1 d.trap, acc.2 ++ [e.1])) (s, [])
/-- The delivery of deferred causes before an instruction. A named-tile cause is recorded against the issuing fibre of its NAME.GET
(R381); before an instruction on its tile the other acting fibres of the set take it too, as R398 and R399 have it, and not
TILE_STATE of the tile that it left empty (DEDUCED, log entry 137). -/
def State.deliver (s : State) (x : Ctx) (point : Bool) (uses : Uses) : State × List Lane :=
  let r := s.deliverOwn x point uses
  match x.tileCause uses with
  | none => r
  | some d =>
    let rest := x.active.filter (fun l => !r.2.contains l)
    (r.1.takeTraps x.key rest (fun _ => d.trap), r.2 ++ rest)

/-- The lanes whose fibre must take REG_EMPTY, with the trap (R19, R313). -/
def Ctx.emptyTraps (x : Ctx) (uses : Uses) : List (Lane × Trap) :=
  x.fibres.filterMap fun e => (firstTrapping x.w e.2 0 uses.src).map fun o =>
    (e.1, { cause := regEmpty,
            info0 := BitVec.ofNat 32 (o.2.reg + (if o.2.isS then 256 else 0) + o.1 % 8 * 512) })

/-- After an instruction: lanes that did not move go on, the issue is counted, C, Q and the serial flag are updated, and the
undo record of the issue is kept (R17, R95, R144, R330). -/
def State.finish (s : State) (x : Ctx) (moved : List Lane) (completed held : Bool) : State :=
  match s.warp? x.key with
  | none => s
  | some w =>
    let w := w.mapLanes (x.lanes.filter (fun l => !moved.contains l)) (fun _ f => f.advance x.iss.len)
    let a := { w.toWarpArch with retired := w.retired + (if completed then 1 else 0) }
    let a := a.afterIssue x.iss.sel w.keys.length
    let w := { w with toWarpArch := a, sel := none, waiting := .none, released := false }
    let w := if held then w.commit else w.pushUndo s.tick x.w.toWarpArch
    let w := { w with issues := w.issues + 1 }
    let s := s.setWarp x.key w
    if completed then s.checkInject x.key w.retired else s

/-- The warp keeps its set and waits (R145), on an operand or otherwise. -/
def State.keepWaiting (s : State) (x : Ctx) (operand : Bool) : State :=
  s.modWarp x.key (fun w => { w with sel := some { x.iss.sel with lanes := x.lanes, blocked := operand } })

/-- Is the undo log of a speculative warp full (R238)? -/
def Warp.undoFull (w : Warp) : Bool :=
  match w.spec with
  | some f => decide (f.num + 64 ≤ w.issues)
  | none => false

/-- What an instruction's answer leaves: the warp waits, or the issue is finished. -/
def Ctx.settle (x : Ctx) (a : Act) : State :=
  match a with
  | .wait s' gone => s'.keepWaiting { x with lanes := x.lanes.filter (fun l => !gone.contains l) } false
  | .done s' moved completed held => s'.finish x moved completed held

/-- The rest of an issue once deferred causes and privilege are settled: REG_EMPTY, waits, then the instruction (R19, R20). -/
def State.runChecked (s : State) (x : Ctx) (uses : Uses) (act : Ctx → State → Act) : State :=
  let ts := x.emptyTraps uses
  let s := s.takeTraps x.key (ts.map (·.1)) (fun l => ((ts.find? (fun t => t.1 == l)).map (·.2)).getD { cause := regEmpty })
  let gone := ts.map (·.1)
  let rest := x.active.filter (fun l => !gone.contains l)
  let x' := { x with lanes := x.lanes.filter (fun l => !gone.contains l), active := rest }
  if rest.isEmpty && !gone.isEmpty then s.finish x' [] false false
  else if (s.warp? x.key).isNone then s
  else if x'.fibres.any (fun e => uses.waits x.w e.2) then s.keepWaiting x' true
  else
    x'.settle (act x' s)

/-- Has an issue done what no rollback takes back: a record is posted, the group ended, or no fibre is left? A warp with an
unresolved FENCE waits before it (R238, R240). -/
def State.irrevocable (s t : State) (k : WarpKey) : Bool :=
  match s.group? (s.groupKey k), t.group? (s.groupKey k), t.warp? k with
  | some a, some b, some w => a.records != b.records || w.live.isEmpty
  | some _, _, _ => true
  | none, _, _ => false
/-- The outcome t of an issue, or u when the warp waits for its FENCE to resolve. -/
def State.unlessSpec (s : State) (k : WarpKey) (u t : State) : State :=
  if ((s.warp? k).bind (·.spec)).isSome && s.irrevocable t k then u else t

/-- Does the instruction act in a lane: its guard holds there, or it has none (R17)? -/
def Warp.actsIn (w : Warp) (guard : Option Guard) (l : Lane) : Bool :=
  match guard, w.fibre? l with
  | some g, some f => guardHolds g f
  | _, _ => true

/-- The fibres take their recorded causes where the instruction is a delivery point, and the rest go on with it (R315). -/
def State.runDelivered (s : State) (x : Ctx) (point : Bool) (uses : Uses) (act : Ctx → State → Act) : State :=
  let d := s.deliver x point uses
  if (d.1.warp? x.key).isNone then d.1
  else if d.2.isEmpty then s.runChecked x uses act
  else
    let x' := { x with w := (d.1.warp? x.key).getD x.w, lanes := x.lanes.filter (fun l => !d.2.contains l), active := x.active.filter (fun l => !d.2.contains l) }
    if x'.active.isEmpty then d.1.finish x' [] false false else d.1.runChecked x' uses act

/-- One instruction issues for its set (R17, R64 step 3, R315). `guard` is none for a format without one; `point` says that
the instruction is a delivery point of R315 whatever it reads; `inHandler` that it is legal only in a trap
handler. A warp inside a wait that the instruction's own rule resumes goes straight on with it (R56). -/
def State.issueNow (s : State) (guard : Option Guard) (point inHandler : Bool) (uses : Uses) (act : Ctx → State → Act) : State :=
  match s.issue with
  | none => s
  | some iss =>
    match s.warp? iss.key with
    | none => s
    | some w =>
      if w.undoFull then s.modWarp iss.key (fun w => { w with sel := some iss.sel })
      else
        let lanes := iss.sel.lanes.filter (fun l => (w.fibre? l).isSome)
        let x : Ctx := { key := iss.key, lanes := lanes, active := lanes.filter (w.actsIn guard), iss := iss, w := w }
        if w.waiting ≠ .none then x.settle (act x s)
        else
        let bad := if inHandler then x.lanes.filter (fun l => !(x.fibre l).handler) else []
        if !bad.isEmpty then
          let s := s.takeTraps iss.key bad (fun _ => { cause := privileged, info0 := iss.w0, info1 := if iss.len = 2 then iss.w1 else 0 })
          let x' := { x with lanes := x.lanes.filter (fun l => !bad.contains l), active := x.active.filter (fun l => !bad.contains l) }
          if (s.warp? iss.key).isNone then s
          -- Every fibre that would act took PRIVILEGED: the issue does not count (R95).
          else if x'.lanes.isEmpty || (x'.active.isEmpty && !x.active.isEmpty) then s.finish x' [] false false
          else s.runDelivered x' point uses act
        else s.runDelivered x point uses act

/-- An instruction issues, or waits for its warp's FENCE before an effect that cannot be rolled back. -/
def State.runIssue (s : State) (guard : Option Guard) (point inHandler : Bool) (uses : Uses) (act : Ctx → State → Act) : State :=
  match s.issue with
  | none => s
  | some iss => s.unlessSpec iss.key (s.modWarp iss.key (fun w => { w with sel := some iss.sel }))
      (s.issueNow guard point inHandler uses act)

/-- An effect of the issue goes into the store gate, in order with the stores of its warp (R329). -/
def State.holdEffect (s : State) (x : Ctx) (e : Held) : State :=
  s.modWarp x.key (fun w => { w with pend := w.pend ++
    [{ num := x.w.issues, lane := 64, kind := .held e, pc := x.iss.pc, hdr := x.iss.hdr, spec := x.w.spec.isSome, seq := s.tick }] })

/-! ## Shapes of instructions -/

/-- The outcome of a step that always goes on: no meaning of this machine stops it. -/
abbrev Out := Host.Outcome State Fault Refusal

/-- Each acting fibre changes on its own and goes on (R75, R98). -/
def Ctx.eachLane (x : Ctx) (s : State) (fn : Lane → Fibre → Fibre) : Act :=
  .next (s.modWarp x.key (fun w => w.mapLanes x.active fn))

/-- Each acting fibre moves to a place of its own. -/
def Ctx.eachMoves (x : Ctx) (s : State) (fn : Lane → Fibre → Fibre) : Act :=
  .done (s.modWarp x.key (fun w => w.mapLanes x.active fn)) x.active true false

/-- Some fibres trap, the others act: the shape of an instruction with a trap of its own. It completes in some fibre unless
every acting fibre trapped (R95). -/
def Ctx.eachOrTrap (x : Ctx) (s : State) (fn : Lane → Fibre → Trap ⊕ Fibre) (moves : Bool) : Act :=
  let rs := x.fibres.map (fun e => (e.1, fn e.1 e.2))
  let bad := rs.filterMap (fun r => match r.2 with
    | .inl t => some (r.1, t)
    | .inr _ => none)
  let good := rs.filterMap (fun r => match r.2 with
    | .inl _ => none
    | .inr f => some (r.1, f))
  let s := s.modWarp x.key (fun w => good.foldl (fun w e => w.setFibre e.1 e.2) w)
  let s := bad.foldl (fun s e => s.takeTrap x.key e.1 e.2) s
  .done s (bad.map (·.1) ++ (if moves then good.map (·.1) else [])) (x.active.isEmpty || !good.isEmpty) false

/-- Some fibres trap at once; the others wait as one set while any of them is blocked, and then act together: the shape of
CALL, RET and of instructions that check before they wait (R24, R145). -/
def Ctx.checkThenWait (x : Ctx) (s : State) (check : Lane → Fibre → Option Trap) (blocked : Lane → Fibre → Bool)
    (fn : Lane → Fibre → Fibre) (moves : Bool) : Act :=
  let bad := x.fibres.filterMap (fun e => (check e.1 e.2).map (fun t => (e.1, t)))
  let gone := bad.map (·.1)
  let rest := x.active.filter (fun l => !gone.contains l)
  let s := bad.foldl (fun s e => s.takeTrap x.key e.1 e.2) s
  if rest.isEmpty then .done s gone x.active.isEmpty false
  else if rest.any (fun l => blocked l (x.fibre l)) then .wait s gone
  else .done (s.modWarp x.key (fun w => w.mapLanes rest fn)) (gone ++ (if moves then rest else [])) true false

/-- Every acting fibre takes the same trap (R293). -/
def Ctx.allTrap (x : Ctx) (s : State) (t : Trap) : Act :=
  .done (s.takeTraps x.key x.active (fun _ => t)) x.active x.active.isEmpty false

/-- A plain instruction: nothing but registers of each acting fibre changes. -/
def plain (s : State) (g : Guard) (uses : Uses) (fn : Lane → Fibre → Fibre) : Out :=
  .next (s.runIssue (some g) false false uses (fun x s => x.eachLane s fn))

/-- A long-latency producer whose result is known at issue (R18): its destinations become empty, and the write back fills
them. -/
def Ctx.produce (x : Ctx) (s : State) (dst : Fibre → List Nat) (fn : Lane → Fibre → Fibre × List Word) : Act :=
  .next (s.modWarp x.key fun w =>
    let w' := w.mapLanes x.active (fun l f => (fn l f).1.emptyEntries (dst f))
    { w' with pend := w'.pend ++ x.fibres.map (fun e =>
        { num := x.w.issues, lane := e.1, kind := .regs ((dst e.2).zip (fn e.1 e.2).2), pc := x.iss.pc, hdr := x.iss.hdr }) })

/-- A long-latency instruction of each fibre. -/
def latent (s : State) (g : Guard) (uses : Uses) (dst : Fibre → List Nat) (fn : Lane → Fibre → Fibre × List Word) : Out :=
  .next (s.runIssue (some g) false false uses (fun x s => x.produce s dst fn))

end Sys2Proof.Machine
end

