-- ==== Sys2Proof/Machine/Turn.lean ====
section
/-! DEFINITION. Waits that a rule of their own resumes, and the turn of deterministic mode (R151 to R153). -/

namespace Sys2Proof.Machine

/-- A warp that is marked for shedding has issued a barrier instruction or STEP: it stops at its next pre-emption point
(R348). -/
def State.reachedPoint (s : State) (k : WarpKey) : State :=
  s.modWarp k (fun w => if w.shedMark then { w with stopMark := true } else w)

/-- Is the warp still in the wait of a barrier, REG.GROW, STEP or ICINV (R56, R167)? -/
def State.stillWaits (s : State) (k : WarpKey) (w : Warp) : Bool :=
  match w.waiting with
  | .none => false
  | .barrier o => match s.barKey? k o with
    | some b => w.hasArrive o || (w.arrivedBit o && (s.barrier b).parity == w.aparBit o)
    | none => false
  | .grow _ | .step | .icinv _ _ => !w.released

/-- Is the warp in a wait that lets another warp have the turn (R152)? The wait of ICINV is none of them. -/
def State.waitsAside (s : State) (k : WarpKey) (w : Warp) : Bool :=
  match w.waiting with
  | .icinv _ _ => false
  | _ => s.stillWaits k w

/-- The set that the warp would issue next. -/
def Warp.nextSet (w : Warp) : List Lane :=
  match w.sel with
  | some x => x.lanes
  | none => (w.choose.map (·.1.lanes)).getD []
/-- Do the fibres that the warp would issue next stand at a clause boundary (R56)? -/
def Warp.atHeader (w : Warp) : Bool := w.nextSet.all (fun l => (w.fibre? l).all (fun f => !f.inside))

/-- The allocation that a warp waits for in REG.GROW, or 0. -/
def Warp.growing (w : Warp) : Nat :=
  match w.waiting with
  | .grow a => a
  | _ => 0
/-- The allocation that a warp will have: its own, or the one it waits for (R189, R191). -/
def Warp.wants (w : Warp) : Nat := if w.ended then 0 else max w.alloc w.growing

/-- Does the warp wait in a barrier or STEP? -/
def Warp.atBarrier (w : Warp) : Bool :=
  match w.waiting with
  | .barrier _ | .step => true
  | _ => false

/-- Must the warp stop where it may be pre-empted: its group leaves, it is marked, or the part drains (R321, R348, R355)? A group
whose swap-out waits for room in the pool stays and goes on (R322). A warp marked for shedding stops in the Wait it is in. -/
def State.mustStop (s : State) (k : WarpKey) (w : Warp) : Bool :=
  w.stopMark || (w.shedMark && w.atBarrier) || s.grid.draining ||
  ((s.group? (s.groupKey k)).any (fun g => g.stopping && !(g.waitsRoom && s.front.poolFull)))

/-- Can the turn come to the warp (R152)? It goes by a warp that has stopped for its group's swap-out or for shedding (DESIGN
CHOICE, log entry 112). -/
def State.able (s : State) (k : WarpKey) : Bool :=
  match s.warp? k, s.coreOf k with
  | some w, some _ => !w.ended && w.parked.isNone && !w.live.isEmpty && !s.waitsAside k w && !w.stopped
  | _, _ => false

/-- Can the warp issue now? -/
def State.canIssue (s : State) (k : WarpKey) : Bool :=
  match s.warp? k, s.coreOf k with
  | some w, some c => !w.ended && w.parked.isNone && !w.live.isEmpty && !s.stillWaits k w && !w.stopped &&
      !(ngetD s.clusters {} (clusterOf c)).retained
  | _, _ => false

/-- The resident warps of a launch on a core, ascending. -/
def State.residentWarps (s : State) (c : Nat) (lid : Word) : List Nat :=
  sortBy id (((s.groupsOn c).filter (fun g => g.lid == lid)).flatMap (fun g => (s.warpsOf g).map (·.w)))

/-- The next warp after `from_` in ascending order, wrapping, that can issue (R152). -/
def State.nextTurn (s : State) (c : Nat) (lid : Word) (from_ : Nat) : Option Nat :=
  let ws := s.residentWarps c lid
  (ws.filter (fun w => decide (from_ < w)) ++ ws.filter (fun w => decide (w ≤ from_))).find? (fun w => s.able ⟨lid, w⟩)

/-- The warp that holds the turn of a launch on a core, if one does (R151). -/
def State.turnHolder (s : State) (c : Nat) (lid : Word) : Option Nat :=
  (kget? (s.core c).turn lid).bind (fun e => if e.2 then none else some e.1)

/-- The turn of a launch on a core as it is when the step begins (R151, R152): a holder that has left the core, ended, or stopped
to leave has passed it; what was passed when no warp could issue goes to the first warp from the last holder that can now; and
at launch and after a restoration it goes to the lowest. -/
def State.turnNow (s : State) (c : Nat) (lid : Word) : Option (Nat × Bool) :=
  let give := fun (n : Option Nat) (last : Option (Nat × Bool)) => match n with
    | some w => some (w, false)
    | none => last
  match kget? (s.core c).turn lid with
  | none => give ((s.residentWarps c lid).find? (fun w => s.able ⟨lid, w⟩)) none
  | some (w, passed) =>
    let gone := !(s.residentWarps c lid).contains w || (match s.warp? ⟨lid, w⟩ with
      | some x => x.ended || x.stopped
      | none => true)
    if passed || gone then give (s.nextTurn c lid w) (some (w, true)) else some (w, false)
/-- The deterministic launches with a group on a core. -/
def State.detOn (s : State) (c : Nat) : List Word :=
  (((s.groupsOn c).map (·.lid)).eraseDups).filter (fun lid => ((s.launch? lid).map (·.det)).getD false)
/-- The cores where groups stand. -/
def State.usedCores (s : State) : List Nat :=
  (s.groups.filterMap (fun e => match e.2.place with
    | .resident c => some c
    | _ => none)).eraseDups
/-- Every turn that has become free goes to the warp it comes to, before anything moves (R152). -/
def State.giveTurns (s : State) : State :=
  s.usedCores.foldl (fun s c => (s.detOn c).foldl (fun s lid => match s.turnNow c lid with
    | some e => if kget? (s.core c).turn lid = some e then s else s.modCore c (fun q => { q with turn := kput q.turn lid e })
    | none => s) s) s

/-- The holder passes the turn (R151, R152): to the next warp that can issue; when there is none, the core waits. A warp that does
not hold it passes none. -/
def State.passTurn (s : State) (k : WarpKey) : State :=
  let c := s.coreNo k
  if !s.isDet k || s.turnHolder c k.lid != some k.w then s
  else
    s.modCore c (fun q => { q with turn := kput q.turn k.lid (match s.nextTurn c k.lid k.w with
      | some w => (w, false)
      | none => (k.w, true)) })

/-- May the warp issue under the turn (R151)? Outside deterministic mode every warp may. -/
def State.hasTurn (s : State) (k : WarpKey) : Bool :=
  !s.isDet k || s.turnHolder (s.coreNo k) k.lid == some k.w

/-- The warp takes the turn. -/
def State.holdTurn (s : State) (k : WarpKey) : State :=
  if s.isDet k then s.modCore (s.coreNo k) (fun q => { q with turn := kput q.turn k.lid (k.w, false) }) else s

end Sys2Proof.Machine
end

