-- ==== Sys2Proof/Machine/Fetch.lean ====
section
/-! DEFINITION. Fetching instruction words and entering a clause (R13, R48 to R56, R151, R216, R221, R263). -/

namespace Sys2Proof.Machine

/-- What a fetch gives: a word, EXEC_FAULT with its reason, or a poisoned sector. -/
inductive Fetched where
  | word (w : Word)
  | fault (reason : Nat)
  | poison
  deriving DecidableEq, Repr

/-- The byte address of the word at a PC (R13). -/
def codeAddr (l : Launch) (pc : Word) : Nat := (l.record.codebase.toNat + 4 * pc.toNat) % 2 ^ 64

/-- Fetch the word at a PC for a warp of a launch on a core: translated afresh (R216, R221); the core may return its old
copy of the word until an ICINV drops it (R263: the free choice). The control region is uncached. Answers the state with the core's copy of the word. -/
def State.fetchWord (s : State) (c : Nat) (l : Launch) (pc : Word) : State × Fetched :=
  let va := codeAddr l pc
  if va / 2 ^ 56 ≠ 0 then (s, .fault 4)
  else
    match s.translate c l.root va .fetch with
    | .fault r => (s, .fault r)
    | .poison => (s, .poison)
    | .ok pa _ =>
      if packageOf pa ≠ s.domid then (s, .fault 4)
      else if s.region (localOf pa) = .control then
        let r := s.ctrlRead (ctrlOff pa) 4
        (r.1, .word (BitVec.ofNat 32 r.2))
      else if s.poisoned (localOf pa) 4 then (s, .poison)
      else
        let new := BitVec.ofNat 32 (s.memVal (localOf pa) 4)
        let w := match (s.core c).code.find? (fun x => x.root == l.root && x.va == va) with
          | some x => if Config.fetchOld s.tick va then x.word else new
          | none => new
        (s.modCore c (fun k => { k with code :=
          ⟨l.root, va, w⟩ :: k.code.filter (fun x => !(x.root == l.root && x.va == va)) }), .word w)

/-- Fetch n words upward from a PC; the first that cannot be fetched decides, and the answer names its PC. -/
def State.fetchWords (s : State) (c : Nat) (l : Launch) : (n : Nat) → (pc : Word) → State × (Fetched × Word ⊕ List Word)
  | 0, _ => (s, .inr [])
  | n + 1, pc =>
    match s.fetchWord c l pc with
    | (s, .word w) =>
      match State.fetchWords s c l n (pc + 1) with
      | (s, .inr ws) => (s, .inr (w :: ws))
      | r => r
    | (s, f) => (s, .inl (f, pc))

/-! ## The header (R49 to R51) -/

def headN (h : Word) : Nat := h.toNat % 16
def headClass (h : Word) : Nat := h.toNat / 16 % 4
def headYield (h : Word) : Bool := h.getLsbD 6
def headLoop (h : Word) : Bool := h.getLsbD 7
/-- The wait mask, with bit i of the result condition i of R53. -/
def headWait (h : Word) : BitVec 15 := BitVec.ofNat 15 (h.toNat / 2 ^ 8 % 2 ^ 7 * 2 ^ 8)

/-- Does a clause class allow a category (R50)? -/
def classAllows (cl : Nat) (c : Category) : Bool :=
  match c with
  | .alu | .ctl => true
  | .mem => cl == 0 || cl == 2
  | .tile => cl == 0 || cl == 3

/-- Checks 3 and 4 of R51 over the words after the header. -/
def wordsOk (cl : Nat) : List Word → Bool
  | [] => true
  | w :: l =>
    match Opcode.ofCode (w.toNat / 2 ^ 24) with
    | none => wordsOk cl l
    | some o =>
      classAllows cl o.category &&
      (if o.isTwoWord then (match l with
        | [] => false
        | _ :: l' => wordsOk cl l')
      else wordsOk cl l)

/-- The trap of a header, if one of the checks of R51 fails. -/
def headTrap (h : Word) (body : List Word) : Option Trap :=
  if h.toNat / 2 ^ 15 ≠ 0 then some { cause := reservedField, info0 := h }
  else if headN h = 0 then some { cause := illegalClause, info0 := h }
  else if wordsOk (headClass h) body then none
  else some { cause := illegalClause, info0 := h }

/-- Fetch the clause at H: the warp's loop buffer gives it when it holds it (R54, R263), else memory. A fetch that fails names
the PC of the word that failed. -/
def State.fetchClause (s : State) (c : Nat) (l : Launch) (w : Warp) (h : Word) :
    State × (Fetched × Word ⊕ Word × List Word) :=
  match w.loop with
  | some (h', hw :: body) =>
    if h' = h then
      match s.translate c l.root (codeAddr l h) .fetch with
      | .fault r => (s, .inl (.fault r, h))
      | .poison => (s, .inl (.poison, h))
      | .ok _ _ => (s, .inr (hw, body))
    else fresh
  | _ => fresh
where
  /-- The fetch from memory. -/
  fresh : State × (Fetched × Word ⊕ Word × List Word) :=
    match s.fetchWord c l h with
    | (s, .word hw) =>
      if hw.toNat / 2 ^ 15 ≠ 0 then (s, .inr (hw, []))
      else
        match s.fetchWords c l (headN hw) (h + 1) with
        | (s, .inr body) => (s, .inr (hw, body))
        | (s, .inl f) => (s, .inl f)
    | (s, f) => (s, .inl (f, h))

/-! ## Waiting on service (R316) -/

/-- The whole warp waits on a record (R316). -/
def State.park (s : State) (k : WarpKey) (r : FaultRec) : State :=
  let d := dieOf (s.coreNo k)
  let x := s.record d r
  let s := (x.1.modWarp k (fun w => { w with parked := some (d, x.2) })).modGroup (s.groupKey k)
    (fun g => { g with records := g.records ++ [(d, x.2)] })
  s.passTurn k

/-- The record of a fetch that faulted (R316): ADDR is the address being translated, that of the word at `at_` (R216). -/
def fetchRecord (s : State) (k : WarpKey) (l : Launch) (lanes : List Lane) (h at_ : Word) (cause : BitVec 8) (reason : Nat) :
    FaultRec :=
  { cause := cause.toNat, reason := reason, flags := flagFetch, lid := k.lid, warp := k.w, mask := laneMask lanes,
    addr := codeAddr l at_, pc := h, hdr := h, place := placeWord (s.coreNo k) }

/-! ## Entering a clause -/

/-- The fibre stands at the first word of the clause (R51). -/
def Fibre.enter (f : Fibre) (h hw : Word) (body : List Word) : Fibre :=
  { f with pc := h + 1, hdr := h, inside := true, body := body, hword := hw, refetch := false }
/-- The fibre goes on inside the clause with the words fetched anew (R56); a PC outside the clause is a header. -/
def Fibre.reenter (f : Fibre) (hw : Word) (body : List Word) : Fibre :=
  if (f.pc - f.hdr).toNat ≤ body.length ∧ f.pc ≠ f.hdr then { f with body := body, hword := hw, refetch := false }
  else f.goto f.pc

/-- The set enters the header at H, or fetches again the clause in which it stands, which the loop buffer does not give (R51 to
R56). A set that the warp has chosen stays chosen, but a fibre that turns out to stand at a header makes it choose anew. A set that
wholly traps at its header issues no instruction, and C, Q and the serial flag of R144 stay as they were (DESIGN CHOICE, log entry
155). -/
def State.enterClause (s : State) (k : WarpKey) (sel : Sel) (h : Word) (again : Bool) : State :=
  match s.launch? k.lid, s.warp? k with
  | some l, some w =>
    let c := s.coreNo k
    let r := s.fetchClause c l (if again then { w with loop := none } else w) h
    let s := r.1
    -- A trap at a header: TRPC and TRHDR hold H, and no word of the clause has an effect.
    let trapAll := fun (t : Trap) =>
      (sel.lanes.foldl (fun s l => s.takeTrapAt k l t h h) s).modWarp k (fun w => { w with
        sel := if again then w.sel.map (fun x => { x with lanes := x.lanes.filter (fun l => !sel.lanes.contains l) }) else none })
    match r.2 with
    | .inl (.fault reason, pc) =>
      if reason = 1 ∨ reason = 2 then s.park k (fetchRecord s k l sel.lanes h pc execFault reason)
      else trapAll { cause := execFault, reason := reason, info0 := h }
    | .inl (_, pc) => s.park k (fetchRecord s k l sel.lanes h pc poisonCause 0)
    | .inr (hw, body) =>
      match headTrap hw body with
      | some t => trapAll t
      | none =>
        if again then
          (s.modWarp k (·.mapLanes sel.lanes (fun _ f => f.reenter hw body))).modWarp k (fun w => { w with
            sel := if sel.lanes.all (fun l => ((w.fibre? l).map (·.inside)).getD true) then w.sel else none })
        else if l.det && headYield hw && !w.yielded then
          (s.modWarp k (fun w => { w with yielded := true })).passTurn k
        else
          let s := s.modWarp k fun w => { w.mapLanes sel.lanes (fun _ f => f.enter h hw body) with
            sel := some sel
            yielded := false
            mask := headWait hw
            loop := if headLoop hw then some (h, hw :: body) else w.loop }
          if (headWait hw).getLsbD 10 then s.flushWarp k else s
  | _, _ => s

/-- CLAUSE_ENTRY (R51): the set of the issue in hand enters the header at which it stands, or the fibres of the set that must
fetch one clause again do so. -/
def execClauseEntry (s : State) : Out :=
  match s.issue with
  | none => .next s
  | some iss =>
    let fibres := iss.sel.lanes.filterMap (s.fibre? iss.key)
    match fibres.find? (fun f => f.inside && f.refetch), fibres.head? with
    | some f, _ =>
      let same := fun (l : Lane) => ((s.fibre? iss.key l).map (fun g => g.hdr == f.hdr && g.inside && g.refetch)).getD false
      .next (s.unlessSpec iss.key s (s.enterClause iss.key { iss.sel with lanes := iss.sel.lanes.filter same } f.hdr true))
    | none, some f =>
      if f.inside then .next s
      else .next (s.unlessSpec iss.key s (s.enterClause iss.key iss.sel f.pc false))
    | none, none => .next s

/-! ## Wait-mask conditions (R53) -/

/-- What a logged instruction counts as under the wait mask: 8 a load or returning atomic, else 9 (R53, R222, R248). A logged LAUNCH
counts under bit 8, as it reads its record; one that is outstanding without a log entry counts under neither (DESIGN CHOICE, log
entry 153). -/
def loggedBit (w0 : Word) : Nat :=
  let o := w0.toNat / 2 ^ 24
  if (0x80 ≤ o ∧ o ≤ 0x86) ∨ o = 0xE3 ∨ o = 0x91 ∨ o = 0x92 ∨ o = 0xCB then 8 else 9
/-- Is a logged instruction a reduction, whose combining bit 10 also waits for (R53)? -/
def loggedRed (w0 : Word) : Bool := w0.toNat / 2 ^ 24 == 0x93
/-- Is no logged access of a kind outstanding? -/
def Warp.noLogged (w : Warp) (bit : Nat) : Bool := w.log.all (fun e => e.2.tag == 0 || loggedBit e.2.w0 != bit)

/-- Does condition `i` of the wait mask hold for a warp? Bits 8 and 9 count logged accesses and cache operations (R222,
R248, R261); bits 11, 12 and 14 its engine commands and fills (R309, R310, R383). -/
def State.condition (s : State) (k : WarpKey) (w : Warp) (i : Nat) : Bool :=
  let cmds := ((s.core (s.coreNo k)).cmds.map (·.2)).filter (fun x => x.key == k)
  match i with
  | 8 => w.noLogged 8 && w.pend.all (fun p => match p.kind with
    | .load .. => false
    | .atom _ dst _ => dst.isEmpty
    | _ => true)
  | 9 => w.noLogged 9 && w.pend.all (fun p => match p.kind with
    | .store .. | .cacheOp | .red .. => false
    | .atom _ dst _ => !dst.isEmpty
    | _ => true)
  | 10 => w.log.all (fun e => e.2.tag == 0 || !loggedRed e.2.w0) && !s.warpRests k && w.pend.all (fun p => match p.kind with
    | .red .. => false
    | _ => true)
  | 11 => cmds.all (fun x => x.stage != .waiting && (x.stage != .gated || decide (32 ≤ x.num)))
  | 12 => !(s.core (s.coreNo k)).locks.any (fun r => cmds.any (fun x => x.num == r.cmd))
  | 13 => w.spec.isNone
  | 14 => !w.heldEffects.any (fun e => match e with
      | .name (.get ..) => true
      | _ => false) && !s.router.pit.any (fun e => e.2.any (fun f => match f.1 with
    | .consumer k' _ => k' == k
    | .package _ => false))
  | _ => true

/-- Do all the conditions that the entered clause waits for hold? -/
def State.maskMet (s : State) (k : WarpKey) (w : Warp) : Bool :=
  (bitsOf 15 w.mask.toNat).all (s.condition k w)

end Sys2Proof.Machine
end

