-- ==== Sys2Proof/Machine/Control.lean ====
section
/-! DEFINITION. Control flow, fibres, software traps, special registers, and the issue of an unassigned opcode (R23, R24, R65,
R93 to R97, R117 to R126). -/

namespace Sys2Proof.Machine

/-- A control instruction whose acting fibres all go on unchanged (R118). -/
def noEffect (s : State) (g : Guard) : Out := .next (s.runIssue (some g) false false {} (fun _ s => .next s))

/-- NOP (R118). -/
def execNop (g : Guard) (s : State) : Out := noEffect s g

/-- YIELD (R118, R151): under deterministic mode the warp passes its turn, when some fibre's guard is true. -/
def execYieldTurn (g : Guard) (s : State) : Out :=
  .next (s.runIssue (some g) false false {} (fun x s => .next (if x.active.isEmpty then s else s.passTurn x.key)))

/-- BRA (R117, R118). -/
def execBra (g : Guard) (disp : BitVec 20) (s : State) : Out :=
  .next (s.runIssue (some g) false false {} (fun x s => x.eachMoves s (fun _ f => f.goto (f.hdr + disp.signExtend 32))))

/-- BRX (R117, R118). -/
def execBrx (g : Guard) (a : Reg) (fa : Bool) (s : State) : Out :=
  .next (s.runIssue (some g) false false { src := [vop a fa] } (fun x s => x.eachMoves s (fun _ f => f.goto (f.val a))))

/-- BRU (R117, R119): the s register is read once for the set. -/
def execBru (g : Guard) (sa : Reg) (nz fs : Bool) (disp : BitVec 32) (s : State) : Out :=
  .next (s.runIssue (some g) false false { src := [sop sa fs] } (fun x s =>
    if (x.w.sval sa == 0) != nz then x.eachMoves s (fun _ f => f.goto (f.hdr + disp)) else .next s))

/-! ## Calls and returns (R22 to R24) -/

/-- WINDOW_OVERFLOW with the entries needed (R313). -/
def windowTrap (needed : Nat) : Trap := { cause := windowOverflow, info0 := BitVec.ofNat 32 needed }
/-- DEPTH_OVERFLOW, up or down (R313). -/
def depthTrap (down : Bool) : Trap := { cause := depthOverflow, info0 := if down then 1 else 0 }

/-- The checks of R23. -/
def callCheck (frame alloc : Nat) (f : Fibre) : Option Trap :=
  if f.depth = 255 then some (depthTrap false)
  else if alloc ≤ f.wb + frame + 63 then some (windowTrap (f.wb + frame + 64))
  else none
/-- The effect of a call on its fibre (R23). -/
def Fibre.callTo (f : Fibre) (frame : Nat) (target : Word) : Fibre :=
  let g := f.fillEntries [(f.wb + frame + 62, f.lr), (f.wb + frame + 63, BitVec.ofNat 32 (f.depth * 2 ^ 24 + f.wb))]
  { g with lr := f.hdr + BitVec.ofNat 32 (f.body.length + 1), wb := f.wb + frame, depth := f.depth + 1 }.goto target
/-- The two entries that a call writes are waited for as destinations (R20). -/
def callBlocked (frame : Nat) (f : Fibre) : Bool := !(f.entry (f.wb + frame + 62)).full || !(f.entry (f.wb + frame + 63)).full

/-- A call of either form. -/
def Ctx.call (x : Ctx) (s : State) (frame : Nat) (target : Fibre → Word) : Act :=
  x.checkThenWait s (fun _ f => callCheck frame x.w.alloc f) (fun _ f => callBlocked frame f)
    (fun _ f => f.callTo frame (target f)) true

/-- CALL (R23, R117, R120). -/
def execCall (g : Guard) (fc : Fin 8) (disp : BitVec 17) (s : State) : Out :=
  .next (s.runIssue (some g) false false {} (fun x s => x.call s (8 * fc.val) (fun f => f.hdr + disp.signExtend 32)))

/-- CALLX (R23, R117, R120). -/
def execCallx (g : Guard) (fc : Fin 8) (a : Reg) (fa : Bool) (s : State) : Out :=
  .next (s.runIssue (some g) false false { src := [vop a fa] } (fun x s => x.call s (8 * fc.val) (fun f => f.val a)))

/-- The saved-state word of a fibre's window: v63 (R22). -/
def Fibre.saved (f : Fibre) : Word := (f.entry (f.wb + 63)).val
/-- The WB that a saved-state word holds. -/
def savedWb (w : Word) : Nat := w.toNat % 65536

/-- The checks of R24. -/
def retCheck (alloc : Nat) (f : Fibre) : Option Trap :=
  let w := f.saved
  if f.depth = 0 then some (depthTrap true)
  else if w.toNat / 2 ^ 24 ≠ f.depth - 1 then some (depthTrap true)
  else if w.toNat / 2 ^ 16 % 256 ≠ 0 ∨ w.toNat % 8 ≠ 0 ∨ f.wb ≤ savedWb w ∨ alloc ≤ savedWb w + 63 then some (windowTrap 0)
  else none
/-- The final wait of R24. -/
def retBlocked (f : Fibre) : Bool :=
  (List.range (f.wb - savedWb f.saved)).any (fun i => !(f.entry (savedWb f.saved + 64 + i)).full)
/-- The effect of a return (R24). -/
def Fibre.return_ (f : Fibre) : Fibre :=
  { f with lr := (f.entry (f.wb + 62)).val, wb := savedWb f.saved, depth := f.saved.toNat / 2 ^ 24 }.goto f.lr

/-- RET (R24, R121). -/
def execRet (g : Guard) (s : State) : Out :=
  .next (s.runIssue (some g) false false { src := [{ reg := 62 }, { reg := 63 }] } (fun x s =>
    x.checkThenWait s (fun _ f => retCheck x.w.alloc f) (fun _ f => retBlocked f) (fun _ f => f.return_) true))

/-! ## Creating and ending fibres (R122 to R124) -/

/-- A new fibre of SPAWN (R123). -/
def Fibre.spawned (c : Fibre) (wo : Nat) (entry gen : Word) : Fibre :=
  let from_ := c.wb + 8 * wo
  { pc := entry, hdr := entry, gen := gen, wb := from_, preds := c.preds,
    entries := c.entries.filter (fun e => decide (from_ ≤ e.1 ∧ e.1 < from_ + 64)) }

/-- The check of R123 for one creator. -/
def spawnCheck (wo alloc : Nat) (f : Fibre) : Option Trap :=
  if alloc ≤ f.wb + 8 * wo + 63 then some (windowTrap (f.wb + 8 * wo + 64)) else none

/-- SPAWN for the issuing fibres (R123). -/
def Ctx.spawn (x : Ctx) (s : State) (d : Reg) (wo : Nat) (disp : Word) : Act :=
  let bad := x.fibres.filterMap (fun e => (spawnCheck wo x.w.alloc e.2).map (fun t => (e.1, t)))
  let k := x.fibres.filter (fun e => (spawnCheck wo x.w.alloc e.2).isNone)
  let s := bad.foldl (fun s e => s.takeTrap x.key e.1 e.2) s
  let gone := bad.map (·.1)
  let free := (List.range (s.widthOf x.key)).filter (fun l => !(x.w.live.contains l))
  if k.isEmpty then .done s gone x.active.isEmpty false
  else if free.length < k.length then
    .done (s.takeTraps x.key (k.map (·.1)) (fun _ =>
      { cause := fibreLimit, info0 := BitVec.ofNat 32 free.length, info1 := BitVec.ofNat 32 k.length })) x.active false false
  else
    let seed := ((s.launch? x.key.lid).map (·.record.seed)).getD 0
    let s := s.modWarp x.key fun w => (free.zip k).foldl (fun w e =>
      (w.setFibre e.1 (e.2.2.spawned wo (e.2.2.hdr + disp) (genSeed seed (identity x.key e.1)))).setFibre e.2.1
        (e.2.2.setV d (BitVec.ofNat 32 e.1))) w
    .done s gone true false

/-- SPAWN (R122, R123): its sources are the 64 entries it copies. -/
def execSpawn (g : Guard) (d : Reg) (wo : Fin 64) (disp : BitVec 32) (s : State) : Out :=
  .next (s.runIssue (some g) false false { src := [{ reg := 8 * wo.val, count := 64 }], dst := [vop d] }
    (fun x s => x.spawn s d wo.val disp))

/-- The fibre of a lane ends (R124): its stores still under way keep their place in order, under a lane number that names no
fibre. -/
def Warp.quitLane (w : Warp) (l : Lane) : Warp :=
  { w.dropFibre l with
    quits := nput w.quits l (ngetD w.quits 0 l + 1)
    pend := w.pend.map (·.relane (fun m => if m % 64 = l then m + 64 else m)) }

/-- Has the fibre an empty entry? -/
def Fibre.anyEmpty (f : Fibre) : Bool := f.entries.any (fun e => !e.2.full)

/-- QUIT (R124, R315). -/
def execQuit (g : Guard) (s : State) : Out :=
  match s.issue with
  | none => .next s
  | some iss =>
    let s := s.runIssue (some g) true false {} (fun x s =>
      if x.fibres.any (fun e => e.2.anyEmpty) then .wait s []
      else .next (s.modWarp x.key (fun w => x.active.foldl Warp.quitLane w)))
    let s := s.endWarpIfEmpty iss.key
    let s := if ((s.warp? iss.key).map (·.ended)).getD false then s.passTurn iss.key else s
    .next (s.reapGroup (s.groupKey iss.key))

/-! ## Software traps and the return from a handler (R125, R126) -/

/-- TRAP and BKPT: the fibre traps with the next word as its PC (R125). -/
def softwareTrap (s : State) (g : Guard) (cause : BitVec 8) (code : BitVec 8) : Out :=
  .next (s.runIssue (some g) false false {} (fun x s =>
    let s := x.fibres.foldl (fun s e =>
      let pc := e.2.pc + 1
      let hdr := if (pc - e.2.hdr).toNat ≤ e.2.body.length then e.2.hdr else e.2.hdr + BitVec.ofNat 32 (e.2.body.length + 1)
      s.takeTrapAt x.key e.1 { cause := cause, info0 := code.setWidth 32 } pc hdr) s
    .done s x.active x.active.isEmpty false))

/-- TRAP (R125). -/
def execTrap (g : Guard) (code : BitVec 8) (s : State) : Out := softwareTrap s g softTrap code
/-- BKPT (R125). -/
def execBkpt (g : Guard) (code : BitVec 8) (s : State) : Out := softwareTrap s g breakpoint code

/-- The N field of the header at Q, if it can be fetched. -/
def State.headerCount (s : State) (k : WarpKey) (q : Word) : State × Option Nat :=
  match s.launch? k.lid with
  | none => (s, none)
  | some l => match s.fetchWord (s.coreNo k) l q with
    | (s, .word h) => (s, some (headN h))
    | (s, _) => (s, none)

/-- The fibre leaves its handler (R97, R126, R312): at P as a header, or inside the clause at Q, which is fetched again. -/
def Fibre.leaveHandler (f : Fibre) (n : Option Nat) : Fibre :=
  let p := f.tr.pc
  let q := f.tr.hdr
  let inside := p != q && (match n with
    | some n => decide ((p - q).toNat ≤ n)
    | none => decide ((p - q).toNat ≤ 15))
  let g := { f with handler := false, tr := {} }
  if inside then { g with pc := p, hdr := q, inside := true, body := [], refetch := true } else g.goto p

/-- TRET (R126): PRIVILEGED outside a handler. -/
def execTret (g : Guard) (s : State) : Out :=
  .next (s.runIssue (some g) false true {} (fun x s =>
    let s := x.fibres.foldl (fun s e =>
      let r := if (e.2.tr.pc != e.2.tr.hdr) && decide ((e.2.tr.pc - e.2.tr.hdr).toNat ≤ 15) then s.headerCount x.key e.2.tr.hdr else (s, some 0)
      r.1.modFibre x.key e.1 (fun f => f.leaveHandler r.2)) s
    .done s x.active true false))

/-! ## Special registers (R93 to R97) -/

/-- The clock count of a core (R95): the periods that each of the `n` steps since the core left reset took. -/
def clockCount (core since : Nat) : (n : Nat) → Nat
  | 0 => 0
  | n + 1 => clockCount core since n + Config.clockStep core (since + n)

/-- A trap register by its number, 0 for TRCAUSE (R94). -/
def TrapRegs.get (t : TrapRegs) (n : SpecReg) : Word :=
  match n with
  | .trcause => t.cause | .trinfo0 => t.info0 | .trinfo1 => t.info1 | .trpc => t.pc | .trhdr => t.hdr
  | .trsave0 => t.save0 | .trsave1 => t.save1 | _ => 0
def TrapRegs.set (t : TrapRegs) (n : SpecReg) (x : Word) : TrapRegs :=
  match n with
  | .trcause => { t with cause := x } | .trinfo0 => { t with info0 := x } | .trinfo1 => { t with info1 := x }
  | .trpc => { t with pc := x } | .trhdr => { t with hdr := x } | .trsave0 => { t with save0 := x }
  | .trsave1 => { t with save1 := x } | _ => t

/-- Is the register legal only in a handler to write (R93, R94)? -/
def handlerOnly : SpecReg → Bool
  | .trcause | .trinfo0 | .trinfo1 | .trpc | .trhdr | .trsave0 | .trsave1 => true
  | _ => false

/-- SR(n) for a fibre (R94 to R97, R177). -/
def State.specReg (s : State) (k : WarpKey) (w : Warp) (l : Lane) (f : Fibre) (n : SpecReg) : Word :=
  let core := s.coreNo k
  let la := (s.launch? k.lid).getD { record := {}, root := 0 }
  let r := la.record
  let g := groupIndex la k.w
  let num := fun (x : Nat) => BitVec.ofNat 32 x
  let clock := if la.det then w.retired else clockCount core s.resetTick (s.tick - s.resetTick)
  match n with
  | .laneid => num l
  | .warpid => num w.warpid
  | .groupx => num (g % r.gridx)
  | .groupy => num (g / r.gridx % r.gridy)
  | .groupz => num (g / (r.gridx * r.gridy))
  | .gangrank => num (la.rankOf g)
  | .launchid => r.lid
  | .nwarps => num r.warps
  | .depth => num f.depth
  | .wbase => num f.wb
  | .alloc => num w.alloc
  | .srgen => f.gen
  | .clklo => num clock
  | .clkhi => num (clock / 2 ^ 32)
  | .retlo => num w.retired
  | .rethi => num (w.retired / 2 ^ 32)
  | .svclevel => num s.level
  | .corenum => if la.det then 0 else num (placeWord core)
  | n => if f.handler then f.tr.get n else 0

/-- SRGET (R93). -/
def execSrget (g : Guard) (d : Reg) (n : SpecReg) (s : State) : Out :=
  .next (s.runIssue (some g) false false { dst := [vop d] } (fun x s =>
    x.eachLane s (fun l f => f.setV d (s.specReg x.key x.w l f n))))

/-- What SRSET writes (R93, R96). -/
def Fibre.setSpec (f : Fibre) (n : SpecReg) (x : Word) : Fibre :=
  match n with
  | .srgen => { f with gen := genFix x }
  | n => if (handlerOnly n) then { f with tr := f.tr.set n x } else f

/-- SRSET (R93): PRIVILEGED for a handler-only register outside a handler. -/
def execSrset (g : Guard) (a : Reg) (n : SpecReg) (s : State) : Out :=
  .next (s.runIssue (some g) false (handlerOnly n) { src := [vop a] } (fun x s =>
    x.eachLane s (fun _ f => f.setSpec n (f.val a))))

/-! ## Encoding traps (R16, R64, R65) -/

/-- The whole set takes an encoding trap of its word; the issue is not counted (R64, R95). A trap that cannot be undone waits while
the warp stands behind an unresolved FENCE (R238, R329). -/
def State.encodingTrap (s : State) (cause : BitVec 8) (w0 w1 : Word) : State :=
  match s.issue with
  | none => s
  | some iss =>
    match s.warp? iss.key with
    | none => s
    | some w =>
      let lanes := iss.sel.lanes.filter (fun l => (w.fibre? l).isSome)
      let x : Ctx := { key := iss.key, lanes := lanes, active := lanes, iss := iss, w := w }
      let waiting := s.modWarp iss.key (fun w => { w with sel := some iss.sel })
      if w.undoFull then waiting
      else s.unlessSpec iss.key waiting
        ((s.takeTraps iss.key lanes (fun _ => { cause := cause, info0 := w0, info1 := w1 })).finish x lanes false false)

/-- An unassigned opcode is issued (R65): ILLEGAL_OPCODE in every fibre of the set. -/
def execUnassignedOpcodeIssue (w : BitVec 32) (s : State) : Out := .next (s.encodingTrap illegalOpcode w 0)

end Sys2Proof.Machine
end

