-- ==== Sys2Proof/Machine/BarrierInstrs.lean ====
section
/-! DEFINITION. Barrier instructions (R165 to R169, R171, R244). An arrival leaves the warp behind its earlier accesses, as an
outstanding item that STORE_GATE_RELEASE performs (R171, R329); so do the effects of BAR.INIT and BAR.DROP. -/

namespace Sys2Proof.Machine

/-- BARRIER_MEMBERSHIP or BARRIER_BUSY with the barrier operand (R313). -/
def barrierTrap (cause : BitVec 8) (o : BarOp) : Trap := { cause := cause, info0 := BitVec.ofNat 32 (barOperand o) }

/-- The shape of a barrier instruction: it acts once per issue for a warp that may address the barrier; it waits for an
unresolved FENCE (R238), and for an earlier BAR.INIT or BAR.DROP of that barrier which the gate holds (R329). BAR.TEST, whose `reads` is true, asks only that the launch holds the barrier (R164, R168): it acts also for a
warp that has dropped out and for E = 0 (DEDUCED, log entry 119). -/
def barrierIssue (s : State) (g : Guard) (o : BarOp) (uses : Uses) (act : Ctx → State → BarKey → Act) (reads : Bool := false) : Out :=
  .next (s.runIssue (some g) true false uses (fun x s =>
    if x.active.isEmpty then .next s
    else if x.w.spec.isSome || x.w.holdsBarrier o then .wait s []
    else match (if x.w.waiting = .none && !reads then s.mayAddress x.key o else s.barKey? x.key o) with
      | none => x.allTrap s (barrierTrap barrierMembership o)
      | some b => act x (s.reachedPoint x.key) b))

/-- The arrival leaves the warp (R167). -/
def State.sendArrival (s : State) (x : Ctx) (o : BarOp) : State :=
  s.modWarp x.key (fun w => { w with pend := w.pend ++
    [{ num := x.w.issues, lane := 64, kind := .arrive o x.w.order, pc := x.iss.pc, hdr := x.iss.hdr }] })

/-- Wait(B) (R167): the warp waits, or leaves its wait with arrived clear. The turn passes when it waits and after it
issues (R151). -/
def Ctx.waitBarrier (x : Ctx) (s : State) (o : BarOp) (b : BarKey) : Act :=
  match s.warp? x.key with
  | none => .next s
  | some w =>
    if w.hasArrive o || (w.arrivedBit o && (s.barrier b).parity == w.aparBit o) then
      let s' := s.modWarp x.key (fun w => { w with waiting := .barrier o, released := false })
      .wait (if x.w.waiting = .none then s'.passTurn x.key else s') []
    else .next ((s.modWarp x.key (fun w => { w.setArrived o false with waiting := .none })).passTurn x.key)

/-- BAR.ARRIVE (R167). -/
def execBarArrive (g : Guard) (o : BarOp) (s : State) : Out :=
  barrierIssue s g o {} (fun x s _ => .next ((s.sendArrival x o).passTurn x.key))

/-- BAR.WAIT (R167). -/
def execBarWait (g : Guard) (o : BarOp) (s : State) : Out := barrierIssue s g o {} (fun x s b => x.waitBarrier s o b)

/-- BAR.SYNC (R167): Arrive, then Wait. -/
def execBarSync (g : Guard) (o : BarOp) (s : State) : Out :=
  barrierIssue s g o {} (fun x s b =>
    if x.w.waiting = .none then x.waitBarrier (s.sendArrival x o) o b else x.waitBarrier s o b)

/-- Tell the root of a domain launch of a change of E (R376). -/
def State.tellRoot (s : State) (b : BarKey) (m : Nat → Msg) : State :=
  match s.remoteRoot b with
  | some r => s.send (m r)
  | none => s
/-- Complete(B) where the count has reached E; on a package that is not the root, the root decides (R376). -/
def State.maybeComplete (s : State) (b : BarKey) : State :=
  if (s.remoteRoot b).isNone then s.completeIfDue b else s

/-- The effect of BAR.INIT as it leaves the gate (R169). -/
def State.applySetE (s : State) (k : WarpKey) (o : BarOp) (e : Nat) : State :=
  match s.barKey? k o with
  | some b => ((s.setBarrier b { s.barrier b with e := e }).tellRoot b (fun r => .barrierSet r b.lid b.index e)).maybeComplete b
  | none => s
/-- The effect of BAR.DROP as it leaves the gate (R169). -/
def State.applyDrop (s : State) (k : WarpKey) (o : BarOp) : State :=
  match s.barKey? k o with
  | some b =>
    let s := (s.modWarp k (·.setDropped o true)).setBarrier b { s.barrier b with e := (s.barrier b).e - 1 }
    (s.tellRoot b (fun r => .barrierDrop r b.lid b.index)).maybeComplete b
  | none => s

/-- BAR.INIT (R169). -/
def execBarInit (g : Guard) (a : Reg) (o : BarOp) (s : State) : Out :=
  barrierIssue s g o { src := [vop a] } (fun x s b =>
    let e := ((x.fibre ((leastOf x.active).getD 0)).val a).toNat
    if 0 < (s.barrier b).engines then x.allTrap s (barrierTrap barrierBusy o)
    else if e = 0 ∨ maxE b.scope < e then x.allTrap s (barrierTrap barrierMembership o)
    else .next (s.holdEffect x (.setE o e)))

/-- BAR.DROP (R169). -/
def execBarDrop (g : Guard) (o : BarOp) (s : State) : Out :=
  barrierIssue s g o {} (fun x s b =>
    if 0 < (s.barrier b).engines then x.allTrap s (barrierTrap barrierBusy o)
    else .next (s.holdEffect x (.dropOut o)))

/-- BAR.TEST (R168). -/
def execBarTest (g : Guard) (pd : Pred) (o : BarOp) (s : State) : Out :=
  barrierIssue s g o {} (fun x s b =>
    if x.w.hasArrive o then .wait s []
    else
      let r := !x.w.arrivedBit o || (s.barrier b).parity != x.w.aparBit o
      x.eachLane s (fun _ f => f.setPred pd r)) true

end Sys2Proof.Machine
end

