-- ==== Sys2Proof/Machine/Ed25519.lean ====
section
/-! DEFINITION. Ed25519 signatures, which the spec names by their standard (R393 to R395): the curve in extended coordinates over
the field of 2^255 - 19, with public keys, signatures and verification of byte strings. -/

namespace Sys2Proof.Machine

/-- The field prime. -/
def edP : Nat := 2 ^ 255 - 19
/-- The order of the base point. -/
def edL : Nat := 2 ^ 252 + 27742317777372353535851937790883648493

/-- Powers in the field, by the bits of the exponent. -/
def edPow : (bits : Nat) → (x e : Nat) → Nat
  | 0, _, _ => 1
  | n + 1, x, e =>
    let r := edPow n (x * x % edP) (e / 2)
    if e % 2 = 1 then r * x % edP else r
/-- Inverses in the field. -/
def edInv (x : Nat) : Nat := edPow 255 x (edP - 2)
/-- The curve constant d. -/
def edD : Nat := (edP - 121665) * edInv 121666 % edP
def edSub (a b : Nat) : Nat := (a + edP - b % edP) % edP

/-- A point in extended coordinates. -/
structure EdPoint where
  x : Nat
  y : Nat
  z : Nat
  t : Nat
  deriving DecidableEq, Repr

def EdPoint.zero : EdPoint := ⟨0, 1, 1, 0⟩
def EdPoint.ofAffine (x y : Nat) : EdPoint := ⟨x, y, 1, x * y % edP⟩
/-- The complete addition law. -/
def EdPoint.add (p q : EdPoint) : EdPoint :=
  let a := edSub p.y p.x * edSub q.y q.x % edP
  let b := (p.y + p.x) * (q.y + q.x) % edP
  let c := 2 * p.t * q.t * edD % edP
  let d := 2 * p.z * q.z % edP
  let e := edSub b a
  let f := edSub d c
  let g := (d + c) % edP
  let h := (b + a) % edP
  ⟨e * f % edP, g * h % edP, f * g % edP, e * h % edP⟩
def EdPoint.neg (p : EdPoint) : EdPoint := ⟨edSub 0 p.x, p.y, p.z, edSub 0 p.t⟩
/-- n times a point, by the bits of n. -/
def EdPoint.mul : (bits : Nat) → (n : Nat) → EdPoint → EdPoint
  | 0, _, _ => EdPoint.zero
  | k + 1, n, p =>
    let r := EdPoint.mul k (n / 2) (p.add p)
    if n % 2 = 1 then r.add p else r

/-- The 32 bytes of a point: y, with the low bit of x on top. -/
def EdPoint.bytes (p : EdPoint) : List Byte :=
  let i := edInv p.z
  bytesOf 32 (p.y * i % edP + p.x * i % edP % 2 * 2 ^ 255)
/-- The x of a y with the given low bit, if the curve has one. -/
def edRecover (y sign : Nat) : Option Nat :=
  let u := edSub (y * y % edP) 1
  let v := (edD * (y * y % edP) + 1) % edP
  let w := u * edInv v % edP
  let r := edPow 255 w ((edP + 3) / 8)
  let x := if r * r % edP = w then some r
    else
      let r' := r * edPow 255 2 ((edP - 1) / 4) % edP
      if r' * r' % edP = w then some r' else none
  match x with
  | none => none
  | some x => if x = 0 ∧ sign = 1 then none else some (if x % 2 = sign then x else edP - x)
/-- A point from its 32 bytes. -/
def EdPoint.ofBytes (l : List Byte) : Option EdPoint :=
  let n := Sys2Proof.Machine.ofBytes (l.take 32)
  let y := n % 2 ^ 255
  if edP ≤ y then none else (edRecover y (n / 2 ^ 255 % 2)).map (fun x => EdPoint.ofAffine x y)
/-- The base point: y is 4/5 and x is even. -/
def EdPoint.base : EdPoint :=
  let y := 4 * edInv 5 % edP
  EdPoint.ofAffine ((edRecover y 0).getD 0) y

/-- The clamped scalar and the prefix of a 32-byte seed. -/
def edScalar (seed : List Byte) : Nat × List Byte :=
  let h := sha512 seed
  let a := ofBytes (h.take 32)
  (a % 2 ^ 254 / 8 * 8 + 2 ^ 254, h.drop 32)
/-- The public key of a seed. -/
def edPublic (seed : List Byte) : List Byte := (EdPoint.mul 255 (edScalar seed).1 EdPoint.base).bytes
/-- The signature of a message under a seed: 64 bytes. -/
def edSign (seed msg : List Byte) : List Byte :=
  let (a, pre) := edScalar seed
  let r := ofBytes (sha512 (pre ++ msg)) % edL
  let rb := (EdPoint.mul 253 r EdPoint.base).bytes
  let k := ofBytes (sha512 (rb ++ edPublic seed ++ msg)) % edL
  rb ++ bytesOf 32 ((r + k * a) % edL)
/-- Is a signature of a message good under a public key? -/
def edVerify (key msg sig : List Byte) : Bool :=
  let s := ofBytes ((sig.drop 32).take 32)
  if key.length ≠ 32 ∨ sig.length ≠ 64 ∨ edL ≤ s then false
  else match EdPoint.ofBytes key with
    | none => false
    | some a =>
      let k := ofBytes (sha512 (sig.take 32 ++ key ++ msg)) % edL
      ((EdPoint.mul 253 s EdPoint.base).add (EdPoint.mul 253 k a.neg)).bytes == sig.take 32

end Sys2Proof.Machine
end

