-- ==== Sys2Proof/Machine/Measure.lean ====
section
/-! DEFINITION. Measurement (R393) and what an in-field test has in common with its abort (R395). -/

namespace Sys2Proof.Machine

/-- MEASk as its 64 bytes. -/
def Boot.measBytes (b : Boot) (k : Nat) : List Byte := bytesOf 64 (ngetD b.meas 0 k).toNat
/-- Extend MEASk with a digest: SHA-512 of the register followed by the digest. -/
def Boot.extend (b : Boot) (k : Nat) (digest : List Byte) : Boot :=
  { b with meas := nsetD b.meas 0 k (BitVec.ofNat 512 (ofBytes (sha512 (b.measBytes k ++ digest)))) }
def State.modBoot (s : State) (fn : Boot → Boot) : State := { s with boot := fn s.boot }

/-- The cluster that an in-field test names. -/
def Boot.testCluster (b : Boot) : Nat := 12 * b.iftDie + b.iftCluster
/-- The payload runs once the cluster is empty of groups: MEAS5 is extended first. -/
def State.applyTest (s : State) : State :=
  if (List.range 32).all (fun c => (s.groupsOn (32 * s.boot.testCluster + c)).isEmpty) then s.modBoot (fun b => b.extend 5 b.iftDigest)
  else s
/-- The test ends with a status: the cluster returns to service, and vector 8 is raised (R386). -/
def State.endTest (s : State) (status : Nat) : State :=
  ((s.modCluster s.boot.testCluster (fun c => { c with testing := false })).modBoot (fun b => { b with iftStat := status })).send
    (.vector 8)

end Sys2Proof.Machine
end

