-- ==== Sys2Proof/Machine/Accesses.lean ====
section
/-! DEFINITION. The issue of a memory access of a warp (R127, R128, R222, R234, R248 to R259): its checks in order, its
translation, and the outstanding items, log entries and deferred causes that it leaves. -/

namespace Sys2Proof.Machine

/-- What an access does at its target. -/
inductive MemOp where
  | load (conv : LoadConv)
  | store
  | atom (op : AtomOp) (ty : AtomType)
  | cas (ty : CasType) (pd : Pred)
  | red (op : AtomOp) (ty : AtomType)
  /-- The read of a launch record (R185). -/
  | launch
  deriving DecidableEq, Repr

/-- Where an access forms its address: memory, the warp's own scratch, or a core's scratch in its cluster (R251). -/
inductive Space where
  | memory | scratch | cluster
  deriving DecidableEq, Repr

/-- A memory instruction's access, the same for every fibre. -/
structure MemAccess where
  guard : Guard
  uses : Uses
  space : Space := .memory
  sbase : Reg
  vo : Reg
  scale : Bool
  off : Int := 0
  /-- The offset register is read unsigned (LAUNCH, R185). -/
  unsignedOff : Bool := false
  size : Nat
  align : Nat
  op : MemOp
  scope : Scope := .package
  /-- It leaves no copy in L1 (R265). -/
  bypass : Bool := false
  /-- The first destination register and how many entries. -/
  dst : Option (Reg × Nat) := none
  /-- The 16 bytes of operands of a fibre (R326). -/
  data : Fibre → Nat := fun _ => 0

/-- Does the access wait behind an unresolved FENCE (R238)? -/
def MemOp.fenced : MemOp → Bool
  | .load _ | .store => false
  | _ => true
/-- The kind that translation sees (R216). -/
def MemOp.kind : MemOp → Kind
  | .load _ | .launch => .read
  | .store | .red .. => .write
  | .atom .. | .cas .. => .atomic
/-- Is it compared in protected mode (R332)? -/
def MemOp.compared : MemOp → Bool
  | .load _ => false
  | _ => true
/-- Does the access act on two halves of a pair that spans two words (R256)? -/
def MemOp.straddles (o : MemOp) (a : Nat) : Bool :=
  match o with
  | .atom _ ty | .red _ ty => ty.align == 2 && a % 4 == 2
  | _ => false

/-! ## Addresses -/

/-- The scale factor k. -/
def MemAccess.k (m : MemAccess) : Nat := if m.scale then m.size else 1
/-- sbase64 + SInt(vo) x k + off, as a 64-bit value (R127). -/
def MemAccess.raw (m : MemAccess) (w : Warp) (f : Fibre) : Nat :=
  (wrap64 ((w.sval64 m.sbase).toNat +
    (if m.unsignedOff then ((f.val m.vo).toNat : Int) else (f.val m.vo).toInt) * m.k + m.off)).toNat
/-- x of R251. -/
def MemAccess.rawScratch (m : MemAccess) (w : Warp) (f : Fibre) : Nat :=
  (wrap32 ((w.sval m.sbase).toNat + (f.val m.vo).toInt * m.k)).toNat

/-- A trap that reports an address (R313). -/
def addressTrap (cause : BitVec 8) (reason addr : Nat) : Trap :=
  { cause := cause, reason := reason, info0 := BitVec.ofNat 32 addr, info1 := BitVec.ofNat 32 (addr / 2 ^ 32) }

/-- Where one fibre's access goes. -/
inductive Goes where
  | trap (t : Trap)
  | mem (va : Nat)
  | scr (g : GroupKey) (off : Nat)
  deriving DecidableEq, Repr

/-- EffAddr (R127). -/
def effAddr (addr align : Nat) : Goes :=
  if addr / 2 ^ 56 ≠ 0 then .trap (addressTrap accessFault 0 addr)
  else if addr % align ≠ 0 then .trap (addressTrap alignment 0 addr)
  else .mem addr

/-- The group of the warp's gang that stands on core c of its cluster (R204). -/
def State.scratchPeer (s : State) (k : WarpKey) (c : Nat) : Option GroupKey :=
  match s.launch? k.lid with
  | none => none
  | some l =>
    let own := s.coreNo k
    let at_ := own / 32 * 32 + c
    let g := groupIndex l k.w
    if (l.record.gang = 1 ∧ at_ ≠ own) ∨ (l.record.gang = 4 ∧ at_ / 4 ≠ own / 4) then none
    else ((l.gangGroups (l.gangOf g)).find? (fun i => s.groupCore ⟨k.lid, i⟩ == some at_)).map (fun i => ⟨k.lid, i⟩)

/-- The address and checks of a scratch access (R251). -/
def State.scratchAddr (s : State) (k : WarpKey) (x size align : Nat) (cluster : Bool) : Goes :=
  let c := if cluster then x / 2 ^ 27 else s.coreNo k % 32
  let off := if cluster then x % 2 ^ 27 else x
  let t := fun (cause : BitVec 8) (r : Nat) => Goes.trap { cause := cause, reason := r, info0 := BitVec.ofNat 32 x }
  match s.scratchPeer k c with
  | none => t accessFault 4
  | some g =>
    if ((s.launch? k.lid).map (·.record.scratch)).getD 0 < off + size then t accessFault 4
    else if off % align ≠ 0 then t alignment 0
    else .scr g off

/-- Where a memory access goes. The second half of a straddling pair has an address of its own, and where that has one of the bits
[63:56] the access takes ACCESS_FAULT with it (R28, R256: DEDUCED, log entry 147). -/
def MemOp.reach (o : MemOp) (addr align : Nat) : Goes :=
  match effAddr addr align with
  | .mem va => if o.straddles va ∧ (va + 2) / 2 ^ 56 ≠ 0 then .trap (addressTrap accessFault 0 (va + 2)) else .mem va
  | g => g
/-- Where a fibre's access goes. -/
def State.goes (s : State) (x : Ctx) (m : MemAccess) (f : Fibre) : Goes :=
  match m.space with
  | .memory => m.op.reach (m.raw x.w f) m.align
  | .scratch => s.scratchAddr x.key (m.rawScratch x.w f) m.size m.align false
  | .cluster => s.scratchAddr x.key (m.rawScratch x.w f) m.size m.align true

/-! ## Range locks (R234, R252) -/

def RangeLock.meetsMem (r : RangeLock) (root a n : Nat) : Bool :=
  match r.box with
  | .mem ro lo hi => ro == root && decide (a < hi ∧ lo < a + n)
  | .scr _ _ _ => false
def RangeLock.meetsScr (r : RangeLock) (g : GroupKey) (a n : Nat) : Bool :=
  match r.box with
  | .scr h lo hi => h == g && decide (a < hi ∧ lo < a + n)
  | .mem _ _ _ => false
/-- The locks that the cores of a core's cluster hold, and those that stopped commands of swapped-out groups keep there
(R299). -/
def State.clusterLocks (s : State) (c : Nat) : List RangeLock :=
  (s.cores.filter (fun e => clusterOf e.1 == clusterOf c)).flatMap (·.2.locks) ++
  (s.groups.filter (fun e => clusterOf e.2.lastCore == clusterOf c)).flatMap (·.2.locks)
/-- RANGE_LOCK of an access, if it touches a held range. -/
def State.lockTrap (s : State) (x : Ctx) (size : Nat) : Goes → Option Trap
  | .trap _ => none
  | .mem va =>
    let root := ((s.launch? x.key.lid).map (·.root)).getD 0
    if (s.clusterLocks (s.coreNo x.key)).any (·.meetsMem root va size) then some (addressTrap rangeLock 0 va) else none
  | .scr g off =>
    if (s.clusterLocks (s.coreNo x.key)).any (·.meetsScr g off size) then
      some { cause := rangeLock, info0 := BitVec.ofNat 32 off } else none

/-! ## What a fibre's access becomes -/

/-- One fibre's access once its address is translated: where its bytes are, and those of its second half when it straddles. -/
structure Placed where
  lane : Lane
  va : Nat
  loc : Loc
  loc2 : Option Loc := none
  data : Nat
  /-- Destination entries, as absolute numbers. -/
  dst : List Nat
  deriving DecidableEq, Repr

/-- The outcome of translation for one fibre. -/
inductive Outcome where
  | ok (p : Placed) (page : Option LastPage)
  | logged (reason : Nat)
  | deferred (reason : Nat)
  /-- A table entry of this address's walk is poisoned. -/
  | poison (va : Nat)
  deriving DecidableEq, Repr
/-- The address whose walk met poison. -/
def Outcome.poisonAt : Outcome → Option Nat
  | .poison va => some va
  | _ => none

/-- Translate one fibre's access, both halves of a straddling pair before either is performed (R216, R256). -/
def State.place (s : State) (k : WarpKey) (op : MemOp) (lp : Option LastPage) (lane : Lane) (va data : Nat) (dst : List Nat) :
    Outcome :=
  let c := s.coreNo k
  let root := ((s.launch? k.lid).map (·.root)).getD 0
  let fault := fun (r : Nat) => if r ≤ 2 then Outcome.logged r else .deferred r
  match s.translateFor c root va op.kind lp with
  | .poison => .poison va
  | .fault r => fault r
  | .ok pa page =>
    if op.straddles va then
      match s.translateFor c root (va + 2) op.kind lp with
      | .poison => .poison (va + 2)
      | .fault r => fault r
      | .ok pa2 page2 => .ok ⟨lane, va, .mem pa, some (.mem pa2), data, dst⟩ (some page2)
    else .ok ⟨lane, va, .mem pa, none, data, dst⟩ (some page)

/-- The outcome of a lane. -/
def outcomeOf (outs : List (Lane × Outcome)) (l : Lane) : Option Outcome :=
  (outs.find? (fun o => o.1 == l)).map (fun o => o.2)

/-- A translated access fills the last-page register of its fibre (R219). -/
def Fibre.keepPage (f : Fibre) (o : Option Outcome) : Fibre :=
  match o with
  | some (.ok _ (some page)) => { f with lastPage := some page }
  | _ => f

/-- A location of package memory of another package? -/
def State.isRemote (s : State) : Loc → Bool
  | .mem pa => packageOf pa != s.domid
  | .scr _ _ => false
/-- A location of the control region of this package? -/
def State.isControl (s : State) : Loc → Bool
  | .mem pa => packageOf pa == s.domid && s.region (localOf pa) == .control
  | .scr _ _ => false
/-- A location of this package's own memory? -/
def State.isOwnMem (s : State) (l : Loc) : Bool :=
  match l with
  | .mem _ => !s.isRemote l && !s.isControl l
  | .scr _ _ => false

/-! ## Outstanding items -/

/-- The update of a unit from an access's operands: `.lo` or whole, or `.hi` (R255 to R257). -/
def MemOp.update (o : MemOp) (data : Nat) (hi : Bool) : Update :=
  let lo64 := BitVec.ofNat 64 data
  match o with
  | .cas ty _ => .cas ty lo64 (BitVec.ofNat 64 (data / 2 ^ 64))
  | .atom op ty | .red op ty => .op op ty (if hi then lo64 >>> 16 else lo64)
  | _ => .op .exch .b32 lo64

/-- Element size of a unit. -/
def MemOp.unitSize (o : MemOp) : Nat :=
  match o with
  | .atom _ ty | .red _ ty => ty.size
  | .cas ty _ => ty.size
  | _ => 0

/-- The units of a fibre's atomic (R256). -/
def Placed.units (p : Placed) (o : MemOp) : List AtomUnit :=
  match p.loc2 with
  | none => [{ lane := p.lane, part := 0, loc := p.loc, size := o.unitSize, upd := o.update p.data false }]
  | some l2 => [{ lane := p.lane, part := 0, loc := p.loc, size := 2, upd := o.update p.data false, straddles := true },
                { lane := p.lane, part := 1, loc := l2, size := 2, upd := o.update p.data true, straddles := true }]

/-- Units of the same bytes form one run, in the order of their first member (R232, R256). -/
def runsOf : List AtomUnit → List (List AtomUnit)
  | [] => []
  | u :: l =>
    let rs := runsOf l
    match rs.find? (fun r => (r.head?).any (fun v => v.loc == u.loc && v.size == u.size)) with
    | some r => (u :: r) :: rs.filter (fun q => q != r)
    | none => [u] :: rs

/-- What the items of one issue have in common. -/
structure ItemBase where
  num : Nat
  pc : Word
  hdr : Word
  words : Word × Word
  key : Nat × Nat
  spec : Bool
  seq : Nat
  scope : Scope
  bypass : Bool

/-- One item. -/
def ItemBase.item (b : ItemBase) (lane : Lane) (kind : PendKind) (va : Nat) (ops : List (Lane × Nat × Nat)) : Pend :=
  { num := b.num, lane := lane, kind := kind, va := va, pc := b.pc, hdr := b.hdr, words := b.words, ops := ops,
    key := (b.key.1, b.key.2, lane), spec := b.spec, seq := b.seq,
    scope := b.scope, bypass := b.bypass }

/-- The pieces of a reduction for the combining buffer: the aligned word, its halves, and the operand in place (R258). A piece
on another package, in the control region or in scratch does not rest. -/
def Placed.pieces (p : Placed) : List (Loc × Nat × Nat × DWord) :=
  let x := BitVec.ofNat 64 p.data
  match p.loc, p.loc2 with
  | .mem pa, some (.mem pa2) => [(.mem (pa - 2), p.va - 2, 2, x <<< 16 &&& 0xFFFF0000), (.mem pa2, p.va + 2, 1, x >>> 16 &&& 0xFFFF)]
  | l, _ => [(l, p.va, 3, x)]

/-- The outstanding items of an access for the fibres that are placed, in lane order (R224, R225, R256, R258). -/
def State.items (s : State) (b : ItemBase) (o : MemOp) (size : Nat) (ps : List Placed) : List Pend :=
  let info := fun (p : Placed) => [(p.lane, p.va, p.data)]
  let atoms := fun (us : List AtomUnit) (ret : Bool) (pred : Option Nat) =>
    (runsOf us).map fun r =>
      let ls := r.map (·.lane)
      let mine := ps.filter (fun p => ls.contains p.lane)
      b.item ((ls.head?).getD 0) (.atom r (if ret then mine.map (fun p => (p.lane, p.dst)) else []) pred)
        ((mine.head?).map (·.va) |>.getD 0) (mine.flatMap info)
  match o with
  | .load conv => ps.map (fun p => b.item p.lane (.load p.loc size conv p.dst) p.va (info p))
  | .store => ps.map (fun p => b.item p.lane (.store p.loc (bytesOf size p.data)) p.va (info p))
  | .launch => ps.map (fun p => b.item p.lane (.launch p.loc p.dst) p.va (info p))
  | .atom .. => atoms (ps.flatMap (·.units o)) true none
  | .cas _ pd => atoms (ps.flatMap (·.units o)) true (if pd.val = 7 then none else some pd.val)
  | .red op ty =>
    ps.flatMap (fun p => (p.pieces.filter (fun q => s.isOwnMem q.1)).map (fun q =>
      b.item p.lane (.red q.1 q.2.2.1 op ty b.scope q.2.2.2) q.2.1 (info p))) ++
    atoms ((ps.flatMap (·.units o)).filter (fun u => !s.isOwnMem u.loc)) false none

/-! ## The operand log (R222) -/

/-- The lowest free entry of a log. -/
def freeLog (m : NMap LogEntry) : Nat := ((List.range (m.length + 1)).find? (fun i => (nget? m i).isNone)).getD 0
/-- Has a fibre an entry in the log (R222, rule 4)? -/
def Warp.isLogged (w : Warp) (l : Lane) : Bool := w.log.any (fun e => e.2.mask.contains l)

/-- The lowest lane's reason of a list. -/
def firstReason (l : List (Lane × Nat)) : Nat := ((l.head?).map (·.2)).getD 0
/-- Post the record of a logged access and keep its entry (R222, R316). -/
def State.postLogged (s : State) (k : WarpKey) (idx : Nat) (e : LogEntry) (reason : Nat) : State :=
  let c := s.coreNo k
  let va := ((e.addrs.find? (fun a => some a.1 == leastOf e.mask)).map (·.2.toNat)).getD 0
  let r := s.record (dieOf c)
    { cause := 0x10, reason := reason, flags := flagLogged, index := idx, lid := k.lid, warp := k.w, mask := laneMask e.mask,
      addr := va, pc := e.pc, hdr := e.hdr, place := placeWord c }
  (r.1.modWarp k (fun w => { w with log := nput w.log idx { e with tag := r.2, die := dieOf c, answered := false } })).modGroup
    (s.groupKey k) (fun g => { g with records := g.records ++ [(dieOf c, r.2)] })

/-- A deferred ACCESS_FAULT from translation (R311, R315). -/
def accessCause (reason va : Nat) (dst : List Nat) : Deferred :=
  { cause := accessFault, reason := reason, info0 := BitVec.ofNat 32 va, info1 := BitVec.ofNat 32 (va / 2 ^ 32),
    source := .access dst }

/-! ## Deterministic checks (R242, R246, R259) -/

/-- The key's first two fields (R244). -/
def State.orderKey (s : State) (k : WarpKey) (w : Warp) : Nat × Nat :=
  let nl := ((s.launch? k.lid).map (·.record.totalWarps)).getD 1
  let n := w.order
  (n, (k.w + nl - n / 4096 % nl) % nl)

/-- Is a reduction held at its home slice (R246)? -/
def MemOp.isHeld : MemOp → Bool
  | .red .add ty => ty.isFloat
  | _ => false

/-- How many held reductions, applied or on their way, a slice has (R246). -/
def State.heldAt (s : State) (slice : Nat × Nat) : Nat :=
  s.heldReds.countP (fun r => s.homeSlice r.pa == slice) +
  (s.warps.map (fun e => if s.isDet e.1 then e.2.pend.countP (fun p => match p.kind with
    | .red (.mem pa) _ .add ty _ _ => ty.isFloat && s.homeSlice (localOf pa) == slice
    | _ => false) else 0)).foldl (· + ·) 0

/-- The fibres whose reduction finds its slice full (R246), in lane order. -/
def State.overflowing (s : State) (ps : List Placed) : List Lane :=
  (ps.foldl (fun (acc : List (Nat × Nat) × List Lane) p =>
    let sl := p.pieces.filterMap (fun q => match q.1 with
      | .mem pa => if s.isOwnMem q.1 then some (s.homeSlice (localOf pa)) else none
      | .scr _ _ => none)
    if sl.any (fun x => decide (4096 < s.heldAt x + acc.1.countP (· == x) + sl.countP (· == x))) then (acc.1, acc.2 ++ [p.lane])
    else (acc.1 ++ sl, acc.2)) ([], [])).2

/-- Is the item an access to memory or scratch? -/
def Pend.isAccess (p : Pend) : Bool :=
  match p.kind with
  | .regs _ | .cacheOp | .arrive .. | .held _ => false
  | _ => true
/-- Has the warp an earlier access that is not yet in O? An atomic that its slice has queued has its place (R238, R245). -/
def Warp.unperformed (w : Warp) : Bool :=
  w.log.any (fun e => e.2.tag != 0) || w.pend.any (fun p => p.isAccess && (match p.stage with
    | .queued | .remote _ => false
    | _ => true))

/-- Is an item already sent to another package? -/
def PendStage.isSent : PendStage → Bool
  | .remote _ => true
  | _ => false

/-- The record of a warp that meets poison (R216, R316, R334). -/
def State.poisonRecord (s : State) (k : WarpKey) (lanes : List Lane) (va : Nat) (pc hdr : Word) : FaultRec :=
  { cause := 0x14, lid := k.lid, warp := k.w, mask := laneMask lanes, addr := va, pc := pc, hdr := hdr,
    place := placeWord (s.coreNo k) }

/-- May the warp issue a memory instruction now (R222 rules 4 and 5)? -/
def Ctx.logWaits (x : Ctx) : Bool := decide (4 ≤ x.w.log.length) || x.active.any x.w.isLogged

/-! ## Comparison in protected mode (R332) -/

/-- The issuing fibre (R293): the lowest lane whose guard is true. -/
def Ctx.lead (x : Ctx) : Lane := (leastOf x.active).getD 0
/-- The mismatches that a compared access of the warp has met, when another may come (R337). -/
def State.mismatchesOf (s : State) (k : WarpKey) : Option Nat :=
  if s.isProt k then (s.warp? k).bind (·.mismatches) else none
def State.setMismatches (s : State) (k : WarpKey) (n : Option Nat) : State := s.modWarp k (fun w => { w with mismatches := n })
/-- The two ALU lanes that run the issuing fibre; the mismatch is in their pair (DESIGN CHOICE, log entry 134). -/
def State.pairOf (s : State) (x : Ctx) : List Nat :=
  let p := ((s.steeringOf x.key).prot x.lead).2
  [p.1, p.2]
/-- A mismatch (R332). The first makes the warp run the instruction again. The second makes the core check both lanes: each that
fails retires, and the warp runs the instruction again on rebuilt pairs. The group ends when neither fails, and at a further
mismatch. -/
def State.mismatch (s : State) (x : Ctx) (n : Nat) : State :=
  let c := s.coreNo x.key
  let bad := (s.pairOf x).filter (s.failsCheck c 0)
  if n = 0 then s.setMismatches x.key (some 1)
  else if n = 1 ∧ !bad.isEmpty then
    (((bad.foldl (fun s u => s.retire c 0 u) s).modWarp x.key (fun w => { w with oldSteering := none })).setMismatches x.key (some 2))
  else s.killGroup (s.groupKey x.key) silentError x.key.w x.active
/-- A compared access (R332): with no mismatch it goes on; whether one comes again after the first is a free value. -/
def State.compared (s : State) (x : Ctx) (go : State → Act) : Act :=
  match s.mismatchesOf x.key with
  | none => go s
  | some n =>
    if n = 0 || Config.compareFails s.tick (s.coreNo x.key) then .wait (s.mismatch x n) []
    else go (s.setMismatches x.key none)

/-! ## The accesses of the instructions -/

/-- Uses of F-M: the base pair, the offset, and the data of a store (R128). -/
def memUses (f : FmtM) (data dst : List Operand) : Uses :=
  { src := data ++ [vop f.vo f.fa, sop f.sbase false 2], dst := dst }

/-- A load (R130, R131). -/
def loadAccess (f : FmtM) (size : Nat) (conv : LoadConv) (off : Int := 0) (scope : Scope := .package) : MemAccess :=
  let n := if size ≤ 4 then 1 else size / 4
  { guard := f.g, uses := memUses f [] [vop f.r false n], sbase := f.sbase, vo := f.vo, scale := f.scale, off := off,
    size := size, align := size, op := .load conv, scope := scope, dst := some (f.r, n) }

/-- The value of n entries, the lowest first. -/
def Fibre.quadAt (f : Fibre) (r : Reg) (n : Nat) : Nat :=
  (List.range n).foldr (fun i acc => (f.valAt r i).toNat + 2 ^ 32 * acc) 0

/-- A store (R130, R131): vs, then vo, in encoding order. -/
def storeAccess (f : FmtM) (size : Nat) (off : Int := 0) (scope : Scope := .package) : MemAccess :=
  let n := if size ≤ 4 then 1 else size / 4
  { guard := f.g, uses := memUses f [vop f.r f.fa n] [], sbase := f.sbase, vo := f.vo, scale := f.scale, off := off,
    size := size, align := size, op := .store, scope := scope, data := fun x => x.quadAt f.r n % 2 ^ (8 * size) }

/-- A scratch load (R250, R251). -/
def scratchLoad (f : FmtM) (space : Space) : MemAccess :=
  { guard := f.g, uses := { src := [vop f.vo f.fa, sop f.sbase], dst := [vop f.r] }, space := space, sbase := f.sbase,
    vo := f.vo, scale := f.scale, size := 4, align := 4, op := .load .zext, dst := some (f.r, 1) }
/-- A scratch store. -/
def scratchStore (f : FmtM) (space : Space) : MemAccess :=
  { guard := f.g, uses := { src := [vop f.r f.fa, vop f.vo f.fa, sop f.sbase], dst := [] }, space := space, sbase := f.sbase,
    vo := f.vo, scale := f.scale, size := 4, align := 4, op := .store, data := fun x => (x.val f.r).toNat }

/-- The sources of an atomic's address (R253): a pair in memory, one s register in scratch. -/
def addrOperands (m : AtomAddr) : List Operand := [vop m.vo m.fa, sop m.sbase false (if m.sp then 1 else 2)]
/-- The common part of atomics and reductions. -/
def atomicAccess (g : Guard) (m : AtomAddr) (size align : Nat) (op : MemOp) (src : List Operand) (d : Option Reg)
    (data : Fibre → Nat) : MemAccess :=
  let n := if size = 8 then 2 else 1
  { guard := g, uses := { src := addrOperands m ++ src, dst := d.toList.map (fun r => vop r false n) },
    space := if m.sp then .scratch else .memory, sbase := m.sbase, vo := m.vo, scale := m.scale, size := size,
    align := align, op := op, scope := m.scope, dst := d.map (fun r => (r, n)), data := data }

/-- An operand of one or two entries. -/
def Fibre.operandAt (f : Fibre) (r : Reg) (size : Nat) : Nat := f.quadAt r (if size = 8 then 2 else 1)

/-- ATOM (R253 to R256). -/
def atomAccess (g : Guard) (d : Reg) (m : AtomAddr) (b : Reg) (fb : Bool) (op : AtomOp) (ty : AtomType) : MemAccess :=
  atomicAccess g m ty.size ty.align (.atom op ty) [vop b fb (if ty.size = 8 then 2 else 1)] (some d)
    (fun f => f.operandAt b ty.size)
/-- RED (R253 to R255, R258). -/
def redAccess (g : Guard) (m : AtomAddr) (b : Reg) (fb : Bool) (op : AtomOp) (ty : AtomType) : MemAccess :=
  atomicAccess g m ty.size ty.align (.red op ty) [vop b fb (if ty.size = 8 then 2 else 1)] none (fun f => f.operandAt b ty.size)
/-- ATOMCAS (R257). -/
def casAccess (g : Guard) (d : Reg) (m : AtomAddr) (b : Reg) (fb : Bool) (c : Reg) (fc : Bool) (ty : CasType) (pd : Pred) :
    MemAccess :=
  let n := if ty.size = 8 then 2 else 1
  atomicAccess g m ty.size ty.size (.cas ty pd) [vop b fb n, vop c fc n] (some d)
    (fun f => f.operandAt b ty.size % 2 ^ 64 + 2 ^ 64 * f.operandAt c ty.size)

/-- The bytes of a size code (R131). -/
def sizeBytes : MemSize → Nat
  | .b8 | .s8 => 1
  | .b16 | .s16 => 2
  | .b32 => 4
  | .b64 => 8
  | .b128 => 16
/-- How a size code of R131 loads. -/
def convOf : MemSize → LoadConv
  | .s8 => .sext8
  | .s16 => .sext16
  | .b64 => .words 2
  | .b128 => .words 4
  | _ => .zext

/-- LDX (R131, R265). -/
def ldxAccess (f : FmtM) (off : BitVec 24) (size : MemSize) (pol : Policy) (scope : Scope) : MemAccess :=
  { loadAccess f (sizeBytes size) (convOf size) off.toInt scope with bypass := pol == .bypassL1 }
/-- STX (R131, R265). -/
def stxAccess (f : FmtM) (off : BitVec 24) (size : MemSize) (pol : Policy) (scope : Scope) : MemAccess :=
  { storeAccess f (sizeBytes size) off.toInt scope with bypass := pol == .bypassL1 }

/-- LAUNCH (R185): the read of its record. -/
def launchAccess (g : Guard) (d a sb : Reg) (fa fb : Bool) : MemAccess :=
  { guard := g, uses := { src := [vop a fa, sop sb fb 2], dst := [vop d] }, sbase := sb, vo := a, scale := false,
    unsignedOff := true, size := 128, align := 128, op := .launch, dst := some (d, 1) }

/-- The access that an instruction word makes, for the replay of a logged access (R223). -/
def accessOf : Instr → Option MemAccess
  | .ldB8 f => some (loadAccess f 1 .zext)
  | .ldS8 f => some (loadAccess f 1 .sext8)
  | .ldB16 f => some (loadAccess f 2 .zext)
  | .ldS16 f => some (loadAccess f 2 .sext16)
  | .ldB32 f => some (loadAccess f 4 .zext)
  | .ldB64 f => some (loadAccess f 8 (.words 2))
  | .ldB128 f => some (loadAccess f 16 (.words 4))
  | .stB8 f => some (storeAccess f 1)
  | .stB16 f => some (storeAccess f 2)
  | .stB32 f => some (storeAccess f 4)
  | .stB64 f => some (storeAccess f 8)
  | .stB128 f => some (storeAccess f 16)
  | .ldx f off size pol scope => some (ldxAccess f off size pol scope)
  | .stx f off size pol scope => some (stxAccess f off size pol scope)
  | .atom g d m b fb op ty => some (atomAccess g d m b fb op ty)
  | .atomcas g d m b fb c fc ty pd => some (casAccess g d m b fb c fc ty pd)
  | .red g m b fb op ty => some (redAccess g m b fb op ty)
  | .launch g d a sb fa fb => some (launchAccess g d a sb fa fb)
  | _ => none

/-! ## Replay of a logged access (R223) -/

/-- A logged issue is complete: it counts once (R95, R223), for every later issue boundary too, so that no rollback to one takes
the count back. -/
def State.countLogged (s : State) (k : WarpKey) (num : Nat) : State :=
  let s := s.modWarp k (fun w => { w with
    retired := w.retired + 1
    undo := w.undo.map (fun u => if num < u.num then { u with before := { u.before with retired := u.before.retired + 1 } } else u) })
  match s.warp? k with
  | some w => s.checkInject k w.retired
  | none => s
/-- The stores of an issue no longer count for it. -/
def Warp.settled (w : Warp) (num : Nat) : Warp :=
  { w with pend := w.pend.map (fun p => if p.num = num then { p with counts := false } else p) }
/-- A store of a replayed access was applied: its issue has completed in a fibre. It counts now, or with its log entry while fibres
stay there (R95, R223). -/
def State.storeCounts (s : State) (k : WarpKey) (p : Pend) : State :=
  if !p.counts then s
  else
    let s := s.modWarp k (·.settled p.num)
    match (s.warp? k).bind (fun w => w.log.find? (fun e => e.2.num == p.num && e.2.tag != 0)) with
    | some (i, e) => s.modWarp k (fun w => { w with log := nput w.log i { e with acted := true } })
    | none => s.countLogged k p.num

/-- A fibre takes a precise cause of an access that is replayed: its instruction has issued long since, so the fibre enters its
handler from where it stands, with the logged instruction in TRPC and TRHDR (DESIGN CHOICE, log entry 123). -/
def State.lateTrap (s : State) (k : WarpKey) (l : Lane) (t : Trap) (pc hdr : Word) : State :=
  (s.takeTrapAt k l t pc hdr).modWarp k (fun w => { w with sel := w.sel.bind (fun x =>
    let ls := x.lanes.filter (· != l)
    if ls.isEmpty then none else some { x with lanes := ls }) })

/-- Replay an operand-log entry: each logged fibre is translated afresh and acts with its logged address and data. The issue is
complete when no fibre stays, those with a deferred ACCESS_FAULT being done with it (DEDUCED, log entry 34). A held reduction that
finds its slice full takes DET_OVERFLOW now (R246). -/
def State.replay (s : State) (k : WarpKey) (idx : Nat) : State :=
  match s.warp? k with
  | none => s
  | some w =>
    match nget? w.log idx with
    | none => s
    | some e =>
      match (decodeWords e.w0 e.w1).toOption.bind accessOf with
      | none => s
      | some m =>
        let at_ := fun (l : Lane) => ((e.addrs.find? (fun a => a.1 == l)).map (·.2.toNat)).getD 0
        let dat := fun (l : Lane) => ((e.data.find? (fun a => a.1 == l)).map (·.2)).getD 0
        let dst := fun (l : Lane) => ((e.dst.find? (fun a => a.1 == l)).map (·.2)).getD []
        let outs : List (Lane × Outcome) := e.mask.map (fun l => (l, s.place k m.op none l (at_ l) (dat l) (dst l)))
        let poisoned := outs.filterMap (fun o => o.2.poisonAt.map (fun va => (o.1, va)))
        if !poisoned.isEmpty then
          s.park k (s.poisonRecord k (poisoned.map (·.1)) ((poisoned.head?).map (·.2) |>.getD 0) e.pc e.hdr)
        else
          let placed := outs.filterMap (fun o => match o.2 with
            | .ok p _ => some p
            | _ => none)
          let tooMany := if s.isDet k && m.op.isHeld then s.overflowing placed else []
          let placed := placed.filter (fun p => !tooMany.contains p.lane)
          let stay := outs.filterMap (fun o => match o.2 with
            | .logged r => some (o.1, r)
            | _ => none)
          let deferred := outs.filterMap (fun o => match o.2 with
            | .deferred r => some (o.1, r)
            | _ => none)
          let base : ItemBase := ⟨e.num, e.pc, e.hdr, (e.w0, e.w1), e.order, w.spec.any (fun f => decide (f.num ≤ e.num)), s.tick,
            m.scope, m.bypass⟩
          -- A store that DETCNF tests as it is performed has completed nothing yet.
          let tested := ((s.launch? k.lid).map (fun l => l.det && l.detcnf)).getD false && m.op == .store
          let acted := e.acted || !deferred.isEmpty || placed.any (fun p => !(tested && s.isOwnMem p.loc))
          let its := (s.items base m.op m.size placed).map (fun p => { p with counts := tested && !acted })
          let s := s.modWarp k fun w =>
            let w := w.mapLanes (placed.map (·.lane)) (fun l f => f.keepPage (outcomeOf outs l))
            let w := deferred.foldl (fun w d => w.defer e.num d.1 (accessCause d.2 (at_ d.1) (dst d.1))) w
            let w := if acted then w.settled e.num else w
            { w with pend := w.pend ++ its, log := if stay.isEmpty then ndel w.log idx else w.log }
          let s := tooMany.foldl (fun s l => s.lateTrap k l (addressTrap detOverflow 0 (at_ l)) e.pc e.hdr) s
          if !stay.isEmpty then s.postLogged k idx { e with mask := stay.map (·.1), acted := acted } (firstReason stay)
          else if acted then s.countLogged k e.num else s

end Sys2Proof.Machine
end

