-- ==== Sys2Proof/Machine/Engine.lean ====
section
/-! DEFINITION. The issue of engine commands: the parameter block (R296, R298), bounding boxes and range locks (R309), and the
shared issue of MMA, EPI and COPY (R293, R294, R297). What a command does when it runs is in EngineRun.lean. -/

namespace Sys2Proof.Machine

/-! ## Traps of the tile instructions (R313) -/

def tileStateTrap (t : Nat) : Trap := { cause := tileState, info0 := BitVec.ofNat 32 t }
def tileShapeTrap (t : Nat) : Trap := { cause := tileShape, info0 := BitVec.ofNat 32 t }
/-- TILE_STATE of a ring slot. -/
def ringTrap (slot : Nat) : Trap := tileStateTrap (slot % 16 + 16)
def slotTrap (i : Nat) : Trap := { cause := formatSlot, info0 := BitVec.ofNat 32 i }
/-- RESERVED_FIELD of the instruction in hand. -/
def Issue.reservedTrap (i : Issue) : Trap := { cause := reservedField, info0 := i.w0, info1 := if i.len = 2 then i.w1 else 0 }
/-- A static check of a command at issue: the offending value in both words (R313). -/
def valueTrap (cause : BitVec 8) (reason : Nat) (v : Int) : Trap :=
  { cause := cause, reason := reason, info0 := lo32 (wrap64 v), info1 := hi32 (wrap64 v) }

/-! ## The parameter block (R296) -/

/-- The fields of the 64 bytes. -/
def Params.parse (raw : Nat) : Params :=
  { energy := raw % 2 ^ 16
    peak := raw / 2 ^ 16 % 2 ^ 8
    bv := raw.testBit 31
    bidx := raw / 2 ^ 24 % 16
    gran := raw / 2 ^ 32 % 8
    misc := raw / 2 ^ 40 % 2 ^ 24
    bounds := (List.range 5).map (fun l => raw / 2 ^ (64 + 64 * l) % 2 ^ 16)
    s0 := (List.range 5).map (fun l => (BitVec.ofNat 24 (raw / 2 ^ (80 + 64 * l))).toInt)
    s1 := (List.range 5).map (fun l => (BitVec.ofNat 24 (raw / 2 ^ (104 + 64 * l))).toInt)
    addr0 := raw / 2 ^ 384 % 2 ^ 64
    addr1 := raw / 2 ^ 448 % 2 ^ 64
    raw := raw % 2 ^ 512 }

def Params.bound (p : Params) (l : Nat) : Nat := p.bounds.getD l 1
def Params.step0 (p : Params) (l : Nat) : Int := p.s0.getD l 0
def Params.step1 (p : Params) (l : Nat) : Int := p.s1.getD l 0
/-- The number of iteration vectors. -/
def Params.total (p : Params) : Nat := p.bounds.foldl (· * ·) 1
/-- The iterations between two stop points (R299). -/
def Params.span (p : Params) : Nat := (p.bounds.take p.gran).foldl (· * ·) 1
/-- Index iL of vector number n. -/
def Params.index (p : Params) (n l : Nat) : Nat := n / (p.bounds.take l).foldl (· * ·) 1 % p.bound l
/-- The position of an operand at vector n. -/
def Params.position (p : Params) (base : Int) (steps : List Int) (n : Nat) : Int :=
  (List.range 5).foldl (fun a l => a + (p.index n l : Int) * steps.getD l 0) base
/-- VEC of R301. -/
def Params.vec (p : Params) (n : Nat) : Nat := (List.range 5).foldl (fun a l => a + p.index n l * 2 ^ (16 * l)) 0
/-- The checks of R296 on the fields that every command shares. -/
def Params.fieldsOk (p : Params) : Bool :=
  p.raw / 2 ^ 28 % 8 == 0 && p.raw / 2 ^ 35 % 32 == 0 && decide (p.gran ≤ 4) && !p.bounds.contains 0 && (p.bv || p.bidx == 0)

/-- The bytes of scratch that a group's launch gives it. -/
def State.scratchSize (s : State) (k : WarpKey) : Nat := ((s.launch? k.lid).map (·.record.scratch)).getD 0
/-- The completion barrier of a command (R296). -/
def barBox (i : Nat) : BarOp := ⟨.core, Fin.ofNat 16 i⟩

/-- Read the parameter block and make the checks of R296; `zero` is the command's use table (R298). -/
def State.readParams (s : State) (x : Ctx) (sp : Reg) (zero : Params → Bool) : Except Trap Params :=
  let off := (x.w.sval sp).toNat
  if off % 64 ≠ 0 then .error { cause := alignment, info0 := x.w.sval sp }
  else if s.scratchSize x.key < off + 64 then .error { cause := accessFault, reason := 4, info0 := x.w.sval sp }
  else
    let p := Params.parse (s.scratchVal (s.groupKey x.key) off 64)
    if !p.fieldsOk || !zero p then .error x.iss.reservedTrap
    else if p.bv && (s.mayAddress x.key (barBox p.bidx)).isNone then
      .error { cause := barrierMembership, info0 := BitVec.ofNat 32 (barOperand (barBox p.bidx)) }
    else .ok p

/-! ## Formats of tiles (R292) -/

/-- The shape of a configured tile of a launch. -/
def Tile.shape (t : Tile) (l : Launch) : Shape := ⟨ctlRows t.ctl, ctlCols t.ctl, l.slot (ctlSlot t.ctl)⟩
def State.tileShape (s : State) (k : WarpKey) (t : Tile) : Shape :=
  match s.launch? k.lid with
  | some l => t.shape l
  | none => ⟨0, 0, 0⟩
/-- The slot index of the first of these tiles whose slot is not usable. -/
def State.badSlot (s : State) (x : Ctx) (ts : List Nat) : Option Nat :=
  (ts.find? fun t => (x.w.tile t).cfg && !slotUsable s.level (s.tileShape x.key (x.w.tile t)).slot).map
    (fun t => ctlSlot (x.w.tile t).ctl)
/-- FORMAT_SLOT for tiles. -/
def State.checkSlots (s : State) (x : Ctx) (ts : List Nat) : Except Trap Unit :=
  match s.badSlot x ts with
  | some i => .error (slotTrap i)
  | none => .ok ()
/-- TILE_STATE for the first tile that is not configured. -/
def Ctx.checkConfigured (x : Ctx) (ts : List Nat) : Except Trap Unit :=
  match ts.find? (fun t => !(x.w.tile t).cfg) with
  | some t => .error (tileStateTrap t)
  | none => .ok ()
/-- A check with its trap. -/
def ensure (ok : Bool) (t : Trap) : Except Trap Unit := if ok then .ok () else .error t
/-- TILE_SHAPE for the first tile of a list that breaks a rule. -/
def shapeOf (ts : List Nat) (ok : Nat → Bool) : Except Trap Unit :=
  match ts.find? (fun t => !ok t) with
  | some t => .error (tileShapeTrap t)
  | none => .ok ()

/-! ## Boxes (R309) -/

/-- The bounding box of a strided operand of `z`-byte elements. -/
def Params.box (p : Params) (base : Nat) (steps : List Int) (z : Nat) : Int × Int :=
  (List.range 5).foldl (fun (b : Int × Int) l =>
    let d := ((p.bound l : Int) - 1) * steps.getD l 0
    (b.1 + min 0 d, b.2 + max 0 d)) ((base : Int), (base : Int) + z)

/-- The static address check of an endpoint's box, and the box it registers; a tile endpoint has none. -/
def State.endBox (s : State) (k : WarpKey) (e : Endpoint) (b : Int × Int) (base : Nat) (write : Bool) :
    Except Trap (List (LockBox × Bool)) :=
  match e with
  | .tile => .ok []
  | .memory =>
    if b.1 < 0 ∨ (2 ^ 56 : Int) < b.2 then .error (valueTrap accessFault 0 base)
    else .ok [(.mem (((s.launch? k.lid).map (·.root)).getD 0) b.1.toNat b.2.toNat, write)]
  | .scratch =>
    if b.1 < 0 ∨ (s.scratchSize k : Int) < b.2 then .error (valueTrap accessFault 4 base)
    else .ok [(.scr (s.groupKey k) b.1.toNat b.2.toNat, write)]

/-- ALIGNMENT for the first value that is not a multiple of its factor. -/
def checkMultiples (l : List (Int × Nat)) : Except Trap Unit :=
  match l.find? (fun e => e.1 % (e.2 : Int) != 0) with
  | some e => .error (valueTrap alignment 0 e.1)
  | none => .ok ()

def LockBox.meets (a b : LockBox) : Bool :=
  match a, b with
  | .mem r lo hi, .mem r' lo' hi' => r == r' && decide (lo < hi' ∧ lo' < hi)
  | .scr g lo hi, .scr g' lo' hi' => g == g' && decide (lo < hi' ∧ lo' < hi)
  | _, _ => false

/-! ## What a command needs and does at issue -/

/-- Commands in their issue order. -/
def inOrder (l : List Command) : List Command := sortBy (·.seq) (sortBy (·.rank) l)
/-- Was a command issued before another? -/
def Command.before (x y : Command) : Bool := decide (x.seq < y.seq) || (x.seq == y.seq && decide (x.rank < y.rank))

/-- The issue-time effects of a command that passed its checks (R294). -/
structure Plan where
  params : Params
  slot : Nat := 0
  opens : Bool := false
  consumes : Bool := false
  reads : List Nat := []
  fill : Option Nat := none
  boxes : List (LockBox × Bool) := []
  /-- RSR elements, whose generator steps are consumed at issue. -/
  steps : Nat := 0
  deriving DecidableEq, Repr

/-- The lowest free command number of a core (R297). -/
def CoreState.freeNumber (k : CoreState) : Option Nat := (List.range 32).find? (fun n => (nget? k.cmds n).isNone)

def State.accs (s : State) (k : WarpKey) : Nat := ((s.launch? k.lid).map (·.record.accs)).getD 0

/-- Can all of the command's issue-time waits be met together (R294)? -/
def State.canStart (s : State) (x : Ctx) (p : Plan) : Bool :=
  let k := s.core (s.coreNo x.key)
  let g := s.group? (s.groupKey x.key)
  p.reads.all (fun t => (x.w.tile t).readAllow == .yes) &&
  p.fill.all (fun t => (x.w.tile t).fillAllow == .yes) &&
  (!p.opens || g.any (fun g => (g.slot g.head).state == .free)) &&
  (!p.consumes || g.any (fun g => (g.slot g.tail).state == .full)) &&
  k.freeNumber.isSome && decide (k.locks.length + p.boxes.length ≤ 32) &&
  (!p.params.bv || match s.barKey? x.key (barBox p.params.bidx) with
    | some b => decide ((s.barrier b).engines < 255)
    | none => true)

/-- Do two places meet? -/
def Loc.meets (a : Loc) (n : Nat) (b : Loc) (m : Nat) : Bool :=
  match a, b with
  | .mem x, .mem y => overlaps x n y m
  | .scr g x, .scr h y => g == h && overlaps x n y m
  | _, _ => false
/-- Does an item act on a group's scratch? -/
def Pend.onScratch (p : Pend) (g : GroupKey) : Bool :=
  let at_ : Loc → Bool := fun l => match l with
    | .scr h _ => h == g
    | .mem _ => false
  match p.kind with
  | .load l .. | .store l _ => at_ l
  | .atom us _ _ => us.any (fun u => at_ u.loc)
  | _ => false
/-- Does the read of a command's parameter block wait? For a store of its warp to those bytes that is still in the gate (R329);
in deterministic mode for every access of the group's warps to the group's scratch (R249). -/
def State.blockWaits (s : State) (x : Ctx) (sp : Reg) : Bool :=
  let g := s.groupKey x.key
  let off := (x.w.sval sp).toNat
  x.w.pend.any (fun q => match q.kind with
    | .store l b => l.meets b.length (.scr g off) 64
    | .atom us _ _ => us.any (fun u => u.loc.meets 8 (.scr g off) 64)
    | _ => false) ||
  (s.isDet x.key && (s.warpsOf g).any (fun m => ((s.warp? m).map (fun w => w.pend.any (·.onScratch g))).getD false))

/-- Every issue-time effect of a command under a number, in one step (R294). The command itself waits in the gate (R329): it starts
when its item leaves it, and a rollback takes all of this back before then. -/
def State.startCommand (s : State) (x : Ctx) (i : Instr) (p : Plan) (n : Nat) : State :=
  let c := s.coreNo x.key
  let g := s.groupKey x.key
  let gen := (x.fibre x.lead).gen
  let found := (p.fill.map (fun t => (x.w.tile t).state))
  let cmd : Command := { num := n, key := x.key, lane := x.lead, pc := x.iss.pc, hdr := x.iss.hdr, w0 := x.iss.w0,
                         w1 := if x.iss.len = 2 then x.iss.w1 else 0, instr := i, params := p.params, gen := gen, slot := p.slot,
                         reads := p.reads, fill := p.fill, stage := .gated, seq := s.tick }
  let s := s.modWarp x.key fun w =>
    let w := p.reads.foldl (fun w t => w.setTile t (w.tile t).readIssue) w
    let w := p.fill.toList.foldl (fun w t => w.setTile t (w.tile t).fillIssue) w
    if p.steps = 0 then w else w.mapLanes [x.lead] (fun _ f => { f with gen := genSteps p.steps f.gen })
  let s := s.modGroup g fun q =>
    let q := if p.opens then q.openRing (s.accs x.key) else q
    if p.consumes then q.setSlot p.slot { q.slot p.slot with state := .draining } else q
  let s := if p.params.bv then
      (match s.barKey? x.key (barBox p.params.bidx) with
      | some b => s.setBarrier b { s.barrier b with engines := (s.barrier b).engines + 1 }
      | none => s) else s
  let s := s.modCore c fun k => { k with cmds := nput k.cmds n cmd, locks := k.locks ++ p.boxes.map (fun b => ⟨n, b.1, b.2⟩) }
  s.holdEffect x (.command n found)

/-- Does an instruction act on the accumulator ring of its group? -/
def onRing (i : Instr) : Bool :=
  match i with
  | .mma .. | .epi .. => true
  | _ => false
/-- The ring without the command's issue-time effect: its Open or Consume (R283). -/
def Group.unring (q : Group) (x : Command) : Group :=
  match x.instr with
  | .mma _ _ _ _ _ opn _ _ => if opn then { q.setSlot x.slot {} with head := x.slot } else q
  | .epi .. => q.setSlot x.slot { q.slot x.slot with state := .full }
  | _ => q
/-- A rollback discards a command that is still in the gate, with every issue-time effect of it (R294, R329, R330). -/
def State.unstart (s : State) (k : WarpKey) (n : Nat) (found : Option TileState) : State :=
  let c := s.coreNo k
  match nget? (s.core c).cmds n with
  | none => s
  | some x =>
    let s := s.modWarp k fun w =>
      let w := x.reads.foldl (fun w t => w.setTile t (w.tile t).readDone) w
      x.fill.toList.foldl (fun w t => w.setTile t { w.tile t with state := found.getD .empty }) w
    let s := (s.modGroup (s.groupKey k) (·.unring x)).modCore c (·.dropCommand n)
    if x.params.bv then
      (match s.barKey? k (barBox x.params.bidx) with
      | some b => s.setBarrier b { s.barrier b with engines := (s.barrier b).engines - 1 }
      | none => s) else s
/-- Has another warp of the group a command in the gate that acts on the ring? What it did to the ring may still be taken back. -/
def State.ringHeld (s : State) (x : Ctx) : Bool :=
  (s.core (s.coreNo x.key)).cmds.any (fun e => e.2.stage == .gated && e.2.key != x.key && s.groupKey e.2.key == s.groupKey x.key &&
    onRing e.2.instr)
/-- Does an engine command depend on an effect that the gate holds (R329): on one of its tiles, on a barrier of its warp, or on the
ring? The tiles of an MMA are known only from its block, so it waits for an effect on any. -/
def State.onHeld (s : State) (x : Ctx) (i : Instr) (ts : List Nat) : Bool :=
  (match i with
  | .mma .. => x.w.holdsTile (List.range 16)
  | _ => x.w.holdsTile ts) ||
  x.w.heldEffects.any (fun e => match e with
    | .setE .. | .dropOut _ => true
    | _ => false) ||
  (onRing i && s.ringHeld x)

/-- The issue of an engine command by its set (R293, R294): it waits behind an unresolved FENCE (R238); it is compared in
protected mode (R332). -/
def Ctx.command (x : Ctx) (s : State) (i : Instr) (plan : Except Trap Plan) : Act :=
  if x.active.isEmpty then .next s
  else if x.w.spec.isSome then .wait s []
  else match plan with
    | .error t => x.allTrap s t
    | .ok p =>
      if !s.canStart x p then .wait s []
      else s.compared x (fun s => .next (s.startCommand x i p (((s.core (s.coreNo x.key)).freeNumber).getD 0)))

/-- An engine command: category T, so a delivery point of R315; it reads its block's offset from an s register, and
`ts` are the tiles that its words name. -/
def command (s : State) (g : Guard) (sp : Reg) (ts : List Nat) (i : Instr) (plan : State → Ctx → Except Trap Plan) : Out :=
  .next (s.runIssue (some g) true false { src := [sop sp], tiles := ts } (fun x s =>
    if !x.active.isEmpty && (s.blockWaits x sp || s.onHeld x i ts) then .wait s [] else x.command s i (plan s x)))

end Sys2Proof.Machine
end

