-- ==== Sys2Proof/Machine/Image.lean ====
section
/-! DEFINITION. The swap image (R323 to R328): a group as bytes, and a group from bytes. What the layout has no field for (the
waits of its warps, the destination entries of a logged access, the order of its commands) is kept in State beside it. -/

namespace Sys2Proof.Machine

/-! ## Bytes and numbers -/

/-- Numbers of `n` bytes each. -/
def packN (n : Nat) (l : List Nat) : List Byte := l.flatMap (bytesOf n)
/-- `count` numbers of `n` bytes each, from the start of a list. -/
def chunks (n : Nat) : (count : Nat) → List Byte → List Nat
  | 0, _ => []
  | k + 1, l => ofBytes (l.take n) :: chunks n k (l.drop n)
/-- The number in `n` bytes at an offset. -/
def numAt (l : List Byte) (off n : Nat) : Nat := ofBytes ((l.drop off).take n)
/-- Rounded up to a multiple of 256. -/
def align256 (n : Nat) : Nat := (n + 255) / 256 * 256
/-- Padded with zeros to a multiple of 256. -/
def pad256 (l : List Byte) : List Byte := padTo (align256 l.length) l
/-- Bits as bytes, the first in bit 0. -/
def packBits : List Bool → List Byte
  | a :: b :: c :: d :: e :: f :: g :: h :: l =>
    BitVec.ofNat 8 (a.toNat + 2 * b.toNat + 4 * c.toNat + 8 * d.toNat + 16 * e.toNat + 32 * f.toNat + 64 * g.toNat + 128 * h.toNat) ::
      packBits l
  | [] => []
  | l => [BitVec.ofNat 8 (l.foldr (fun b acc => b.toNat + 2 * acc) 0)]

/-! ## Fibres (R325) -/

/-- The TRAP field: the trap registers, or the recorded deferred cause while the handler flag is clear. -/
def Fibre.trapWords (f : Fibre) : List Nat :=
  match f.handler, f.causes with
  | false, d :: _ => [d.trap.word.toNat, d.info0.toNat, d.info1.toNat, 0, 0, f.tr.save0.toNat, f.tr.save1.toNat]
  | _, _ => [f.tr.cause.toNat, f.tr.info0.toNat, f.tr.info1.toNat, f.tr.pc.toNat, f.tr.hdr.toNat, f.tr.save0.toNat,
             f.tr.save1.toNat]
/-- STATE of a fibre record. -/
def Fibre.stateWord (f : Fibre) : Nat := f.wb % 2 ^ 16 + f.depth % 256 * 2 ^ 16 + f.preds.toNat * 2 ^ 24 + fieldBit f.handler 31
/-- LPV and LPP. -/
def Fibre.lastPageWords (f : Fibre) : List Nat :=
  match f.lastPage with
  | some p => [p.vpage % 2 ^ 40 + fieldBit p.r 40 + fieldBit p.w 41 + fieldBit p.x 42 + 2 ^ 43, p.ppage % 2 ^ 40]
  | none => [0, 0]
/-- A fibre record of 64 bytes. -/
def Fibre.record (f : Fibre) : List Byte :=
  packN 4 ([f.pc.toNat, if f.inside then f.hdr.toNat else f.pc.toNat, f.lr.toNat, f.stateWord, f.gen.toNat] ++ f.trapWords) ++
  packN 8 f.lastPageWords

/-- The recorded cause that a TRAP field holds. -/
def causeOfWords (w info0 info1 : Nat) (kept : List Deferred) : List Deferred :=
  if w / 256 % 2 = 0 then []
  else { (kept.headD { cause := 0, source := .access [] }) with
    cause := BitVec.ofNat 8 w, reason := w / 512 % 8, indet := w.testBit 12,
    info0 := BitVec.ofNat 32 info0, info1 := BitVec.ofNat 32 info1 } :: kept.drop 1

/-- A fibre from its record; `kept` gives what the record has no field for; `gen` is the current TLBI_GEN when it equals
SAVEGEN (R328). -/
def Fibre.ofRecord (b : List Byte) (kept : Fibre) (gen : Option Word) : Fibre :=
  let w := chunks 4 12 b
  let at_ := fun (i : Nat) => BitVec.ofNat 32 (w.getD i 0)
  let st := w.getD 3 0
  let handler := st.testBit 31
  let lp := chunks 8 2 (b.drop 0x30)
  let inside := at_ 1 != at_ 0
  { kept with
    pc := at_ 0, hdr := at_ 1, inside := inside, body := [], refetch := inside
    lr := at_ 2, wb := st % 2 ^ 16, depth := st / 2 ^ 16 % 256, preds := BitVec.ofNat 7 (st / 2 ^ 24), handler := handler
    gen := at_ 4
    tr := if handler || w.getD 5 0 / 256 % 2 = 0 then ⟨at_ 5, at_ 6, at_ 7, at_ 8, at_ 9, at_ 10, at_ 11⟩ else { kept.tr with save0 := at_ 10, save1 := at_ 11 }
    causes := if handler then kept.causes else causeOfWords (w.getD 5 0) (w.getD 6 0) (w.getD 7 0) kept.causes
    lastPage := (match gen with
      | some g => if (lp.getD 0 0).testBit 43 then
          some ⟨lp.getD 0 0 % 2 ^ 40, lp.getD 1 0 % 2 ^ 40, (lp.getD 0 0).testBit 40, (lp.getD 0 0).testBit 41, (lp.getD 0 0).testBit 42, g⟩
        else none
      | none => none) }

/-! ## Operand-log entries (R326) -/

/-- A list by lane, 0 where none. -/
def byLane (n : Nat) (f : Lane → Nat) : List Nat := (List.range n).map f
def LogEntry.bytes (e : LogEntry) : List Byte :=
  packN 4 [e.w0.toNat, e.w1.toNat, e.pc.toNat, e.hdr.toNat] ++
  packN 8 [laneMask e.mask, e.tag.toNat + fieldBit e.answered 32] ++
  packN 8 (byLane 64 (fun l => ((e.addrs.find? (fun a => a.1 == l)).map (·.2.toNat)).getD 0)) ++
  packN 16 (byLane 64 (fun l => ((e.data.find? (fun a => a.1 == l)).map (·.2)).getD 0))
def LogEntry.ofBytes (b : List Byte) (kept : Option LogEntry) : Option LogEntry :=
  let w := chunks 4 4 b
  let m := chunks 8 2 (b.drop 0x10)
  let lanes := bitsOf 64 (m.getD 0 0)
  let addrs := chunks 8 64 (b.drop 0x20)
  let data := chunks 16 64 (b.drop 0x220)
  if lanes.isEmpty then none
  else some { (kept.getD { w0 := 0, w1 := 0, pc := 0, hdr := 0, mask := [], addrs := [], data := [] }) with
    w0 := BitVec.ofNat 32 (w.getD 0 0), w1 := BitVec.ofNat 32 (w.getD 1 0), pc := BitVec.ofNat 32 (w.getD 2 0),
    hdr := BitVec.ofNat 32 (w.getD 3 0), mask := lanes, tag := BitVec.ofNat 32 (m.getD 1 0),
    answered := (m.getD 1 0).testBit 32, addrs := lanes.map (fun l => (l, BitVec.ofNat 64 (addrs.getD l 0))),
    data := lanes.map (fun l => (l, data.getD l 0)) }

/-! ## Warp sections (R324) -/

/-- The entries of a lane. -/
def Warp.laneEntries (w : Warp) (a : Nat) (l : Lane) : List Entry :=
  match w.fibre? l with
  | some f => (List.range a).map f.entry
  | none => List.replicate a Entry.zero
/-- A warp section. -/
def Warp.section_ (w : Warp) (width : Nat) : List Byte :=
  let es := (List.range width).flatMap (w.laneEntries w.alloc)
  let head := packN 4 [w.warpid % 256 + fieldBit w.serial 8 + fieldBit w.ended 9 + w.alloc * 2 ^ 16, w.c] ++
    packN 8 [laneMask w.q, laneMask w.live, w.retired, w.lift,
             maskOf ((List.range 64).filter (fun r => (ngetD w.sregs Entry.zero r).full))] ++
    bytesOf 2 w.growing
  let bars := packN 8 [w.arrived.toNat, w.apar.toNat, w.dropped.toNat]
  pad256 (padTo 0x100 (padTo 0x38 head ++ bars) ++
    packN 4 ((List.range 64).map (fun r => (ngetD w.sregs Entry.zero r).val.toNat)) ++
    (List.range 64).flatMap (fun l => match w.fibre? l with
      | some f => f.record
      | none => List.replicate 64 0) ++
    (List.range 4).flatMap (fun i => match nget? w.log i with
      | some e => e.bytes
      | none => List.replicate 0x620 0) ++
    packN 4 (es.map (·.val.toNat)) ++ packBits (es.map (·.full)))

/-- The size of a warp section. -/
def sectionSize (width a : Nat) : Nat := align256 (0x2A80 + 4 * width * a + width * a / 8)

/-- Entries from a lane's words and bits. -/
def entriesOf (vals : List Nat) (full : Nat → Bool) : NMap Entry :=
  ((List.range vals.length).map (fun i => (i, (⟨BitVec.ofNat 32 (vals.getD i 0), full i⟩ : Entry)))).filter
    (fun e => e.2 != Entry.zero)

/-- A fibre to start from when nothing was kept. -/
def Fibre.blank : Fibre := { pc := 0, hdr := 0, gen := 0 }

/-- A warp from its section. -/
def Warp.ofSection (b : List Byte) (width : Nat) (kept : Warp) (gen : Option Word) : Warp :=
  let w0 := numAt b 0 4
  let a := w0 / 2 ^ 16
  let m := chunks 8 5 (b.drop 8)
  let bars := chunks 8 3 (b.drop 0x38)
  let sr := chunks 4 64 (b.drop 0x100)
  let sfull := m.getD 4 0
  let regs := b.drop 0x2A80
  let fe := numAt b (0x2A80 + 4 * width * a) (width * a / 8)
  let grow := numAt b 0x30 2
  let fibre := fun (l : Lane) =>
    let f := Fibre.ofRecord ((b.drop (0x200 + 64 * l)).take 64) ((kept.fibre? l).getD Fibre.blank) gen
    { f with entries := entriesOf (chunks 4 a (regs.drop (4 * l * a))) (fun j => fe.testBit (l * a + j)) }
  { kept with
    warpid := w0 % 256, serial := w0.testBit 8, ended := w0.testBit 9, alloc := a, c := numAt b 4 4 % 4096
    q := bitsOf 64 (m.getD 0 0), retired := m.getD 2 0, lift := m.getD 3 0
    sregs := entriesOf sr (fun r => sfull.testBit r)
    arrived := BitVec.ofNat 48 (bars.getD 0 0), apar := BitVec.ofNat 48 (bars.getD 1 0), dropped := BitVec.ofNat 48 (bars.getD 2 0)
    slots := (bitsOf width (m.getD 1 0)).map (fun l => (l, fibre l))
    log := (List.range 4).filterMap (fun i =>
      (LogEntry.ofBytes ((b.drop (0x1200 + 0x620 * i)).take 0x620) (nget? kept.log i)).map (fun e => (i, e))) ++ kept.log.filter (fun e => decide (4 ≤ e.1))
    waiting := if grow ≠ 0 then .grow grow else kept.waiting
    sel := kept.sel.map (fun x => { x with blocked := false }), mask := 0, loop := none, undo := [], spec := none }

/-! ## Tiles, ring, commands (R327) -/

/-- The status word of a tile in an image. -/
def Tile.imageWord (t : Tile) : Nat :=
  t.state.code + fieldBit t.cfg 2 + t.readers % 256 * 2 ^ 8 + (match t.cause with
    | some (c, r) => c.toNat * 2 ^ 16 + r % 8 * 2 ^ 24
    | none => 0)
def TileState.ofCode : Nat → TileState
  | 1 => .filling | 2 => .ready | 3 => .draining | _ => .empty
def Tile.ofWords (ctl w : Nat) (kept : Tile) : Tile :=
  { kept with
    ctl := BitVec.ofNat 32 ctl, state := TileState.ofCode (w % 4), cfg := w.testBit 2, readers := w / 2 ^ 8 % 256
    cause := if w / 2 ^ 16 % 256 = 0 then none else some (BitVec.ofNat 8 (w / 2 ^ 16), w / 2 ^ 24 % 8)
    image := [] }
/-- The words of a warp's tiles. -/
def Warp.tileWords (w : Warp) : List Byte :=
  packN 4 ((List.range 16).map (fun t => (w.tile t).ctl.toNat) ++ (List.range 16).map (fun t => (w.tile t).imageWord))
/-- The tiles whose images travel. -/
def Warp.liveTiles (w : Warp) : List Nat := (List.range 16).filter (fun t => (w.tile t).state != .empty)
def Warp.tileImages (w : Warp) (l : Launch) : List Byte :=
  w.liveTiles.flatMap (fun t => imgBytes (w.tile t).image 0 ((w.tile t).shape l).footprint)

/-- A ring slot's 16 KiB. -/
def RingSlot.bytes (x : RingSlot) : List Byte := packN 4 ((List.range 4096).map (fun i => (ngetD x.elems 0 i).toNat))

/-- The engine fault record in an image: that of R301, or the vector that a stopped command goes on from. -/
def Command.faultField (x : Command) : Nat :=
  if x.fault ≠ 0 then x.fault
  else if x.done = 0 then 0
  else x.w0.toNat / 2 ^ 24 * 2 ^ 8 + 2 ^ 24 + x.params.vec x.done * 2 ^ 32
/-- A command record of 128 bytes. -/
def Command.bytes (x : Command) (warpid : Nat) : List Byte :=
  padTo 128 (packN 4 [x.w0.toNat, x.w1.toNat] ++ bytesOf 64 x.params.raw ++ bytesOf 24 x.faultField ++
    bytesOf 4 (warpid + x.lane * 2 ^ 16) ++ bytesOf 1 x.num)

/-- Vector number of an index vector. -/
def Params.number (p : Params) (vec : Nat) : Nat :=
  (List.range 5).foldl (fun a l => a + vec / 2 ^ (16 * l) % 2 ^ 16 * (p.bounds.take l).foldl (· * ·) 1) 0

/-- A command from its record, over what was kept of it. -/
def Command.ofBytes (b : List Byte) (keyOf : Nat → WarpKey) (kept : List Command) : Option Command :=
  let w0 := numAt b 0 4
  let w1 := numAt b 4 4
  let raw := numAt b 8 64
  let fault := numAt b 72 24
  let who := numAt b 96 4
  let num := numAt b 100 1
  match (decodeWords (BitVec.ofNat 32 w0) (BitVec.ofNat 32 w1)).toOption with
  | none => none
  | some i =>
    let p := Params.parse raw
    let real := fault % 256 ≠ 0
    let base : Command := (kept.find? (fun x => x.num == num)).getD
      { num := num, key := keyOf (who % 2 ^ 16), lane := who / 2 ^ 16, pc := 0, hdr := 0, w0 := 0, w1 := 0, instr := i, params := p,
        gen := 0, stage := if real && !fault.testBit 24 then .ended else .paused }
    some { base with w0 := BitVec.ofNat 32 w0, w1 := BitVec.ofNat 32 w1, instr := i, params := p, num := num,
                     lane := who / 2 ^ 16, fault := if real then fault else 0,
                     done := if fault = 0 then 0 else p.number (fault / 2 ^ 32 % 2 ^ 80) }

/-! ## The whole image (R323) -/

/-- The commands of a group that an image holds, in issue order. -/
def State.imageCommands (s : State) (g : GroupKey) : List Command :=
  match s.group? g with
  | none => []
  | some q => inOrder ((match q.place with
    | .resident c => s.groupCommands g c
    | _ => q.cmds).filter (fun x => decide (x.num < 32)))

/-- The image of a group. -/
def State.image (s : State) (g : GroupKey) : List Byte :=
  match s.launch? g.lid, s.group? g with
  | some l, some q =>
    let ws := (s.warpsOf g).filterMap s.warp?
    let warps := ws.flatMap (·.section_ l.width)
    let tiles := pad256 (ws.flatMap (·.tileWords) ++ ws.flatMap (·.tileImages l))
    let ring := (List.range l.record.accs).flatMap (fun i => (q.slot i).bytes)
    let cs := s.imageCommands g
    let cmds := pad256 (padTo 128 (bytesOf 4 cs.length) ++
      cs.flatMap (fun x => x.bytes (((s.warp? x.key).map (·.warpid)).getD 0)))
    let scratch := pad256 (q.scratchBytes 0 l.record.scratch)
    let o1 := 256 + warps.length
    let o2 := o1 + tiles.length
    let o3 := o2 + ring.length
    let o4 := o3 + cmds.length
    let bars := (List.range 16).map fun i =>
      let b := s.barrier ⟨g.lid, .core, g.g, i⟩
      b.e % 4096 + b.count % 4096 * 2 ^ 12 + fieldBit b.parity 24 + b.engines % 256 * 2 ^ 32
    let rstate := maskOf ((List.range 8).flatMap (fun i => (bitsOf 2 (q.slot i).state.code).map (· + 2 * i)))
    padTo 256 (packN 4 [0x00010000, g.lid.toNat, g.g] ++
      packN 1 [l.record.warps, l.width, l.record.accs, fieldBit l.det 0 + fieldBit l.prot 1] ++
      packN 4 [l.record.scratch, l.record.tiles, l.stepNo.toNat, s.tlbi.gen.toNat] ++
      packN 8 [256, o1, o2, o3, o4, o4 + scratch.length] ++ packN 8 bars ++ packN 1 [q.head, q.tail] ++ bytesOf 2 rstate) ++
    warps ++ tiles ++ ring ++ cmds ++ scratch
  | _, _ => []

/-- The warp sections of an image, one after another. -/
def warpSections (width : Nat) : (n : Nat) → List Byte → List (List Byte)
  | 0, _ => []
  | n + 1, b =>
    let z := sectionSize width (numAt b 0 4 / 2 ^ 16)
    b.take z :: warpSections width n (b.drop z)

/-- The tile images of a warp, taken one after another. -/
def takeImages (l : Launch) : List (Nat × Tile) → List Byte → NMap Tile × List Byte
  | [], b => ([], b)
  | (t, x) :: rest, b =>
    let n := if x.state = .empty then 0 else (x.shape l).footprint
    let r := takeImages l rest (b.drop n)
    let y : Tile := { x with image := (x.shape l).imgOf (b.take n) }
    (if y = {} then r.1 else (t, y) :: r.1, r.2)

/-- The tile sections of the warps. -/
def takeTiles (l : Launch) : (ws : List (Warp × List Byte)) → List Byte → List Warp
  | [], _ => []
  | (w, words) :: rest, b =>
    let c := chunks 4 32 words
    let r := takeImages l ((List.range 16).map (fun t => (t, Tile.ofWords (c.getD t 0) (c.getD (16 + t) 0) (w.tile t)))) b
    { w with tiles := r.1 } :: takeTiles l rest r.2

/-- A group and its warps from an image, over what was kept of them. -/
def State.ofImage (s : State) (g : GroupKey) (b : List Byte) : State :=
  match s.launch? g.lid, s.group? g with
  | some l, some q =>
    let nw := l.record.warps
    let off := chunks 8 6 (b.drop 0x20)
    let at_ := fun (i : Nat) => b.drop (off.getD i 0)
    let gen := if numAt b 0x1C 4 = s.tlbi.gen.toNat then some s.tlbi.gen else none
    let keys := s.warpsOf g
    let kept := fun (k : WarpKey) => (s.warp? k).getD { warpid := k.w % nw }
    let secs := (keys.zip (warpSections l.width nw (at_ 0))).map (fun e => Warp.ofSection e.2 l.width (kept e.1) gen)
    let words := (List.range nw).map (fun i => ((at_ 1).drop (128 * i)).take 128)
    let ws := takeTiles l (secs.zip words) ((at_ 1).drop (128 * nw))
    let ring := (List.range l.record.accs).filterMap fun i =>
      let es := chunks 4 4096 ((at_ 2).drop (16384 * i))
      let x : RingSlot := { q.slot i with
        state := RingState.ofCode (numAt b 0xD2 2 / 4 ^ i % 4)
        elems := ((List.range 4096).map (fun j => (j, BitVec.ofNat 32 (es.getD j 0)))).filter (fun e => e.2 != 0) }
      if x = {} then none else some (i, x)
    let n := numAt (at_ 3) 0 4
    let cmds := (List.range n).filterMap (fun i =>
      Command.ofBytes (((at_ 3).drop (128 + 128 * i)).take 128) (fun w => ⟨g.lid, g.g * nw + w⟩) q.cmds)
    let bars := (chunks 8 16 (b.drop 0x50)).map (fun x =>
      ({ e := x % 4096, count := x / 2 ^ 12 % 4096, parity := x.testBit 24, engines := x / 2 ^ 32 % 256 } : Barrier))
    let q' : Group := { q with
      scratch := imgOf ((at_ 4).take l.record.scratch)
      head := numAt b 0xD0 1, tail := numAt b 0xD1 1
      ring := ring
      bars := ((List.range 16).zip bars).map (fun e => (e.1, { e.2 with top := ((nget? q.bars e.1).map (·.top)).getD 0 }))
      cmds := cmds
      endedWarps := (ws.filter (·.ended)).map (·.warpid) }
    (keys.zip ws).foldl (fun s e => s.setWarp e.1 e.2) (s.setGroup g q')
  | _, _ => s

/-- Where the image of a group of a retained cluster lies (R352). -/
def Cluster.saveOf (k : Cluster) (g : GroupKey) : Option (Nat × Nat) := (k.saves.find? (fun e => e.1 == g)).map (·.2)

/-- A group that is out, or in a retained cluster, has its image written afresh where it lies: a cause or a tile reached it
(R354, R382). -/
def State.refreshImage (s : State) (g : GroupKey) : State :=
  match s.group? g with
  | some q => (match q.place with
    | .saved addr _ => { s with mem := memSetBytes s.mem addr (s.image g) }
    | .image _ => s.setGroup g { q with place := .image (s.image g) }
    | .resident c => (match (s.cluster (clusterOf c)).saveOf g with
      | some (addr, _) => { s with mem := memSetBytes s.mem addr (s.image g) }
      | none => s)
    | .flash _ _ => s)
  | none => s

end Sys2Proof.Machine
end

