-- ==== Sys2Proof/Machine/TileInstrs.lean ====
section
/-! DEFINITION. The tile and engine instructions at issue: TCFG, TSTAT, TZERO, TFREE (R295), MMA (R302), EPI (R304), COPY
(R305, R306), TCVT (R307) and TMOV (R308). -/

namespace Sys2Proof.Machine

/-! ## Instructions that act on one tile (R295) -/

/-- A tile instruction of the whole set: it traps, waits, or leaves its effect in the store gate (R329). It depends on an effect on
the tile that the gate still holds. -/
def Ctx.tileAct (x : Ctx) (s : State) (t : Nat) (a : Except Trap (Option TileAct)) : Act :=
  if x.active.isEmpty then .next s
  else if x.w.holdsTile [t] then .wait s []
  else match a with
    | .error t => x.allTrap s t
    | .ok none => .wait s []
    | .ok (some a) => .next (s.holdEffect x (.tile t a))

/-- An event that a tile allows, delays or refuses (R279). -/
def Allow.act (a : Allow) (t : Nat) (e : TileAct) : Except Trap (Option TileAct) :=
  match a with
  | .yes => .ok (some e)
  | .wait => .ok none
  | .trap => .error (tileStateTrap t)

/-- Write one word of an image; padding is not written. -/
def imgSetWord (h : Shape) (m : NMap Byte) (w : Nat) (v : Word) : NMap Byte :=
  (List.range 4).foldl (fun m i => if h.isPadding (4 * w + i) then m else imgSet m (4 * w + i) (byteAt v i)) m
/-- The tile after the effect. TZERO and TMOV.set are fills issued and completed in one step. -/
def TileAct.apply (a : TileAct) (h : Shape) (t : Tile) : Tile :=
  match a with
  | .configure ctl => Tile.configure ctl
  | .zero => t.fillDone (zeroImage h)
  | .free => t.free
  | .words l => t.fillDone (l.foldl (fun m e => imgSetWord h m e.1 e.2) t.image)
/-- The effect as it leaves the gate. -/
def State.applyTile (s : State) (k : WarpKey) (t : Nat) (a : TileAct) : State :=
  s.modWarp k (fun w => w.setTile t (a.apply (s.tileShape k (w.tile t)) (w.tile t)))

/-- The footprint that a tile of a warp takes, or will take once what the gate holds is done (R278). -/
def State.tileTakes (s : State) (k : WarpKey) (w : Warp) (t : Nat) : Nat :=
  (w.heldEffects.map (fun e => match e with
    | .tile u (.configure ctl) => if u = t then (s.tileShape k (Tile.configure ctl)).footprint else 0
    | _ => 0)).foldl max (if (w.tile t).cfg then (s.tileShape k (w.tile t)).footprint else 0)
/-- The footprints of a group's configured tiles, without one of them (R278). -/
def State.otherFootprints (s : State) (k : WarpKey) (t : Nat) : Nat :=
  ((s.warpsOf (s.groupKey k)).map fun j => match s.warp? j with
    | some w => (((List.range 16).filter (fun u => !(j == k && u == t))).map (s.tileTakes j w)).foldl (· + ·) 0
    | none => 0).foldl (· + ·) 0

/-- The checks of R278 for a control word, and then the event. -/
def State.configure (s : State) (x : Ctx) (t : Nat) (ctl : Word) : Except Trap (Option TileAct) :=
  match s.launch? x.key.lid with
  | none => .ok none
  | some l =>
    let h : Shape := (Tile.configure ctl).shape l
    if !slotUsable s.level h.slot then .error (slotTrap (ctlSlot ctl))
    else if !ctlOk ctl || !h.blocksOk || decide (l.record.tiles < s.otherFootprints x.key t + h.footprint) then
      .error (tileShapeTrap t)
    else (x.w.tile t).configAllow.act t (.configure ctl)

/-- TCFG (R278, R295). -/
def execTcfg (g : Guard) (t : TileReg) (sb : Reg) (fb : Bool) (s : State) : Out :=
  .next (s.runIssue (some g) true false { src := [sop sb fb], tiles := [t.val] } (fun x s =>
    x.tileAct s t.val (s.configure x t.val (x.w.sval sb))))

/-- TSTAT (R280, R295): short latency, no event; it depends on an effect on the tile that the gate holds (R329). -/
def execTstat (g : Guard) (d : Reg) (t : TileReg) (s : State) : Out :=
  .next (s.runIssue (some g) true false { dst := [vop d] } (fun x s =>
    if !x.active.isEmpty && x.w.holdsTile [t.val] then .wait s [] else x.eachLane s (fun _ f => f.setV d (x.w.tile t.val).status)))

/-- TZERO (R295): a fill issued and completed in one step. -/
def execTzero (g : Guard) (t : TileReg) (s : State) : Out :=
  .next (s.runIssue (some g) true false { tiles := [t.val] } (fun x s =>
    x.tileAct s t.val (do
      s.checkSlots x [t.val]
      (x.w.tile t.val).fillAllow.act t.val .zero)))

/-- TFREE (R295). -/
def execTfree (g : Guard) (t : TileReg) (s : State) : Out :=
  .next (s.runIssue (some g) true false { tiles := [t.val] } (fun x s =>
    x.tileAct s t.val ((x.w.tile t.val).freeAllow.act t.val .free)))

/-! ## MMA (R302) -/

/-- The tile pairs of the two sequences, each once, in ascending vector order: a level's steps modulo 16 repeat after 16
iterations. -/
def Params.pairs (p : Params) (ta tb : Nat) : List (Nat × Nat) :=
  [4, 3, 2, 1, 0].foldl (fun (acc : List (Nat × Nat)) l =>
    (acc.flatMap fun q => (List.range (min (p.bound l) 16)).map fun (i : Nat) =>
      ((((q.1 : Int) + i * p.step0 l) % 16).toNat, (((q.2 : Int) + i * p.step1 l) % 16).toNat)).eraseDups) [(ta, tb)]

/-- The tiles of an MMA's sequences, each once. -/
def Params.mmaTiles (p : Params) (ta tb : Nat) : List Nat :=
  ([ta, tb] ++ (p.pairs ta tb).flatMap (fun q => [q.1, q.2])).eraseDups

/-- TILE_STATE for the first tile that cannot be read. -/
def Ctx.checkReadable (x : Ctx) (ts : List Nat) : Except Trap Unit :=
  match ts.find? (fun t => (x.w.tile t).readAllow == .trap) with
  | some t => .error (tileStateTrap t)
  | none => .ok ()

/-- The checks of MMA's ring slot. -/
def State.checkRing (s : State) (k : WarpKey) (slot : Nat) (opens : Bool) : Except Trap Unit :=
  match s.group? (s.groupKey k) with
  | none => .ok ()
  | some g =>
    ensure (decide (slot < s.accs k) && (if opens then g.head == slot else (g.slot slot).state == .opened)) (ringTrap slot)

/-- The issue checks of MMA (R302), in the order of R294 and R313. TILE_STATE of a configured tile that cannot be read (R279) comes
after the TILE_SHAPE checks (DESIGN CHOICE, log entry 158). -/
def State.planMma (s : State) (sp : Reg) (ta tb : TileReg) (slot : Fin 8) (opens : Bool) (x : Ctx) : Except Trap Plan := do
  let p ← s.readParams x sp (fun p => p.addr0 == 0 && p.addr1 == 0 && p.misc == 0)
  let ps := p.pairs ta.val tb.val
  let all := p.mmaTiles ta.val tb.val
  let h := fun (t : Nat) => s.tileShape x.key (x.w.tile t)
  let same := fun (a b : Nat) => (h a).rows == (h b).rows && (h a).cols == (h b).cols
  s.checkSlots x all
  x.checkConfigured all
  shapeOf (((ps.flatMap fun q => [(q.1, ta.val), (q.2, tb.val)]).filter fun q => !same q.1 q.2).map (·.1)) (fun _ => false)
  shapeOf [ta.val, tb.val] (fun t => decide ((h t).rows ≤ 64))
  shapeOf [tb.val] (fun t => (h t).cols == (h ta.val).cols)
  shapeOf all (fun t => slotBase (h t).slot != 0)
  shapeOf [tb.val] (fun _ => all.all (fun t => kGroup (slotBase (h t).slot) == kGroup (slotBase (h ta.val).slot)))
  x.checkReadable all
  s.checkRing x.key slot.val opens
  pure { params := p, slot := slot.val, opens := opens, reads := all }

/-- MMA. -/
def execMma (g : Guard) (sp : Reg) (ta tb : TileReg) (slot : Fin 8) (opn cls neg : Bool) (s : State) : Out :=
  command s g sp [ta.val, tb.val] (.mma g sp ta tb slot opn cls neg) (fun s x => s.planMma sp ta tb slot opn x)

/-! ## EPI (R304) -/

/-- The size in bytes of an output element of DST 0 or 1. -/
def outSize (base : Nat) : Nat := if base = 0 then 4 else if base ≤ 2 then 2 else 1

/-- The use table of EPI's block (R298, R304). -/
def epiZero (dst : Endpoint) (vec : Bool) (p : Params) : Bool :=
  p.misc == 0 && p.s1.all (· == 0) && (p.s0.drop 2).all (· == 0) && (vec || p.addr1 == 0) &&
  (match dst with
  | .tile => p.addr0 == 0 && p.s0.all (· == 0)
  | _ => decide (p.bound 0 ≤ 64) && decide (p.bound 1 ≤ 64) && (p.bounds.drop 2).all (· == 1))

/-- The size of the elements that EPI writes outside a tile. -/
def State.epiSize (s : State) (k : WarpKey) (dst : Endpoint) (fslot : Fin 8) : Nat :=
  if dst == .tile then 1 else outSize (slotBase (((s.launch? k.lid).map (·.slot fslot.val)).getD 0))
/-- The boxes of EPI: its destination, and its vector area (R309). -/
def State.epiBoxes (s : State) (k : WarpKey) (dst : Endpoint) (fslot : Fin 8) (vec : Bool) (p : Params) :
    Except Trap (List (LockBox × Bool)) := do
  let out ← s.endBox k dst (p.box p.addr0 p.s0 (s.epiSize k dst fslot)) p.addr0 true
  let area ← if vec then s.endBox k .scratch ((p.addr1 : Int), (p.addr1 : Int) + 1024) p.addr1 false else pure []
  pure (out ++ area)
/-- The issue checks of EPI. RESERVED_FIELD for its bounds and shape stands with the other checks of the block where DST is 0 or 1,
and where DST is 2, where the shape is the tile's, behind the FORMAT_SLOT, TILE_STATE and TILE_SHAPE that the tile's shape may take
(DESIGN CHOICE, log entry 157). -/
def State.planEpi (s : State) (sp : Reg) (t : TileReg) (dst : Endpoint) (fslot : Fin 8) (vec : Bool) (x : Ctx) :
    Except Trap Plan := do
  let p ← s.readParams x sp (epiZero dst vec)
  let fs := ((s.launch? x.key.lid).map (·.slot fslot.val)).getD 0
  let h := s.tileShape x.key (x.w.tile t.val)
  let tile := dst == .tile
  if tile then do
    s.checkSlots x [t.val]
    x.checkConfigured [t.val]
    shapeOf [t.val] (fun _ => decide (h.rows ≤ 64) && decide (h.cols ≤ 64))
    ensure (p.bound 0 == h.cols && p.bound 1 == h.rows && (p.bounds.drop 2).all (· == 1)) x.iss.reservedTrap
    ensure ((x.w.tile t.val).fillAllow != .trap) (tileStateTrap t.val)
  else do
    ensure (slotUsable s.level fs) (slotTrap fslot.val)
    ensure (slotBsz fs == 0) (tileShapeTrap (fslot.val + 32))
  ensure (s.accs x.key != 0) (ringTrap 0)
  let z := s.epiSize x.key dst fslot
  checkMultiples [((p.addr0 : Int), z), ((p.addr1 : Int), if vec then 4 else 1), (p.step0 0, z), (p.step0 1, z)]
  let boxes ← s.epiBoxes x.key dst fslot vec p
  let mode := slotMode (if tile then h.slot else fs)
  pure { params := p, slot := ((s.group? (s.groupKey x.key)).map (·.tail)).getD 0, consumes := true,
         fill := if tile then some t.val else none, boxes := boxes,
         steps := if mode == .rsr then p.bound 0 * p.bound 1 else 0 }

/-- EPI. -/
def execEpi (g : Guard) (sp : Reg) (t : TileReg) (dst : Endpoint) (act : ActFn) (fslot : Fin 8) (rsc csc rbi cbi : Bool)
    (pol : Policy) (s : State) : Out :=
  command s g sp (if dst = .tile then [t.val] else []) (.epi g sp t dst act fslot rsc csc rbi cbi pol)
    (fun s x => s.planEpi sp t dst fslot (rsc || csc || rbi || cbi) x)

/-! ## COPY (R305, R306) -/

/-- LIMIT of a gather or scatter: the index operand's step of level 4. -/
def Params.limit (p : Params) (mode : CopyMode) : Int :=
  match mode with
  | .strided => 0
  | .gather => p.step0 4
  | .scatter => p.step1 4

/-- The steps of the indexed operand and of the other one. -/
def indexedOk (ix other : List Int) (p : Params) : Bool :=
  (ix.take 4).all (· == 0) && p.bound 4 == 1 && other.getD 4 0 == 0 && decide (1 ≤ ix.getD 4 0) && decide (ix.getD 4 0 ≤ 8388607)

/-- The use table of COPY's block; `sloc` says that the tile end point keeps its scale plane apart (R306). -/
def copyZero (mode : CopyMode) (sloc : Bool) (p : Params) : Bool :=
  match mode with
  | .strided => p.misc == 0 || sloc
  | .gather => indexedOk p.s0 p.s1 p
  | .scatter => indexedOk p.s1 p.s0 p

/-- Does a COPY with an end point in this tile move a scale plane kept apart (R306)? -/
def State.copySloc (s : State) (k : WarpKey) (src dst : Endpoint) (tl : Tile) : Bool :=
  (src == .tile || dst == .tile) && tl.cfg && slotSloc (s.tileShape k tl).slot == 1

/-- The box of COPY's source or destination. -/
def Params.copyBox (p : Params) (mode : CopyMode) (source : Bool) (z : Nat) : Int × Int :=
  if source then
    (if mode = .gather then ((p.addr0 : Int), (p.addr0 : Int) + p.step0 4 * z) else p.box p.addr0 p.s0 z)
  else (if mode = .scatter then ((p.addr1 : Int), (p.addr1 : Int) + p.step1 4 * z) else p.box p.addr1 p.s1 z)

/-- The boxes of COPY: its source and its destination, and its index list or scale-plane block (R306, R309). -/
def State.copyBoxes (s : State) (k : WarpKey) (tl : Tile) (src dst : Endpoint) (mode : CopyMode) (esz : Fin 8) (p : Params) :
    Except Trap (List (LockBox × Bool)) := do
  let z := 2 ^ esz.val
  let a ← s.endBox k src (p.copyBox mode true z) p.addr0 false
  let b ← s.endBox k dst (p.copyBox mode false z) p.addr1 true
  let list ← if mode != .strided then
      s.endBox k .scratch ((p.misc : Int), (p.misc : Int) + 4 * p.total) p.misc false
    else if s.copySloc k src dst tl then
      s.endBox k .scratch ((p.misc : Int), (p.misc : Int) + (s.tileShape k tl).scaleSize) p.misc (src == .tile)
    else pure []
  pure (a ++ b ++ list)
/-- The issue checks of COPY. -/
def State.planCopy (s : State) (sp : Reg) (t : TileReg) (src dst : Endpoint) (mode : CopyMode) (esz : Fin 8) (x : Ctx) :
    Except Trap Plan := do
  let tile := src == .tile || dst == .tile
  let sloc := s.copySloc x.key src dst (x.w.tile t.val)
  let z := 2 ^ esz.val
  let p ← s.readParams x sp (copyZero mode sloc)
  let tl := x.w.tile t.val
  let h := s.tileShape x.key tl
  let sbox := p.copyBox mode true z
  let dbox := p.copyBox mode false z
  if tile then do
    s.checkSlots x [t.val]
    x.checkConfigured [t.val]
    let b := if src == .tile then sbox else dbox
    shapeOf [t.val] (fun _ => (mode == .strided || !sloc) && decide (0 ≤ b.1) && decide (b.2 ≤ h.imageSize))
    ensure ((if src == .tile then tl.readAllow else tl.fillAllow) != .trap) (tileStateTrap t.val)
  checkMultiples ([((p.addr0 : Int), z), ((p.addr1 : Int), z)] ++
    (if mode == .gather then [] else p.s0.map (fun v => (v, z))) ++ (if mode == .scatter then [] else p.s1.map (fun v => (v, z))))
  let boxes ← s.copyBoxes x.key tl src dst mode esz p
  pure { params := p, reads := if src == .tile then [t.val] else [], fill := if dst == .tile then some t.val else none,
         boxes := boxes }

/-- COPY. -/
def execCopy (g : Guard) (sp : Reg) (t : TileReg) (src dst : Endpoint) (mode : CopyMode) (esz : Fin 8) (pol : Policy)
    (s : State) : Out :=
  command s g sp (if src = .tile ∨ dst = .tile then [t.val] else []) (.copy g sp t src dst mode esz pol) (fun s x => s.planCopy sp t src dst mode esz x)

/-! ## TCVT (R307) -/

/-- The checks and the issue of TCVT: the conversion is kept as a command of the tile unit, which no power scheduler admits
and no command number counts; it stands under a number from 32 up. TILE_STATE of a tile that cannot be read or filled (R279) comes
after TILE_SHAPE (DESIGN CHOICE, log entry 158). -/
def State.planTcvt (s : State) (m : Bool) (mode : RMode) (ta t : TileReg) (x : Ctx) : Except Trap (Option Plan) := do
  ensure (ta != t) x.iss.reservedTrap
  s.checkSlots x [ta.val, t.val]
  x.checkConfigured [ta.val, t.val]
  let ha := s.tileShape x.key (x.w.tile ta.val)
  let ht := s.tileShape x.key (x.w.tile t.val)
  shapeOf [t.val] (fun _ => ha.rows == ht.rows && ha.cols == ht.cols)
  x.checkReadable [ta.val]
  ensure ((x.w.tile t.val).fillAllow != .trap) (tileStateTrap t.val)
  let used := if m then mode else slotMode ht.slot
  if (x.w.tile ta.val).readAllow == .yes && (x.w.tile t.val).fillAllow == .yes then
    pure (some { params := Params.parse 0, reads := [ta.val], fill := some t.val,
                 steps := if used == .rsr then ht.rows * ht.cols else 0 })
  else pure none

/-- The numbers of a core's conversions: those from 32 up. -/
def CoreState.freeConversion (k : CoreState) : Nat :=
  32 + (((List.range (k.cmds.length + 1)).find? (fun n => (nget? k.cmds (32 + n)).isNone)).getD 0)

/-- TCVT. It waits for an unresolved FENCE, as an engine command does: only time shows it (R238). -/
def execTcvt (g : Guard) (m : Bool) (mode : RMode) (ta t : TileReg) (s : State) : Out :=
  .next (s.runIssue (some g) true false { tiles := [ta.val, t.val] } (fun x s =>
    if x.active.isEmpty then .next s
    else if x.w.spec.isSome || x.w.holdsTile [ta.val, t.val] then .wait s []
    else match s.planTcvt m mode ta t x with
      | .error t => x.allTrap s t
      | .ok none => .wait s []
      | .ok (some p) => .next (s.startCommand x (.tcvt g m mode ta t) p (s.core (s.coreNo x.key)).freeConversion)))

/-! ## TMOV (R308) -/

/-- The checks that TMOV makes for the set: the slot, the tile, and then the fibres whose word index is in range. -/
def State.tmovFibres (s : State) (x : Ctx) (t : Nat) (b : Reg) : List (Lane × Nat) × List Lane :=
  let h := s.tileShape x.key (x.w.tile t)
  let ws := x.fibres.map (fun e => (e.1, (e.2.val b).toNat))
  (ws.filter (fun e => decide (e.2 < h.footprint / 4)), (ws.filter (fun e => !decide (e.2 < h.footprint / 4))).map (·.1))

/-- TMOV of either direction: `allow` is its event; `act` runs for the fibres whose word lies in the footprint. It depends on an
effect on the tile that the gate holds (R329). TILE_STATE of the tile comes before each fibre's TILE_SHAPE (DESIGN CHOICE, log entry
159). -/
def Ctx.tmov (x : Ctx) (s : State) (t : Nat) (b : Reg) (allow : Tile → Allow) (act : List (Lane × Nat) → List Lane → Act) : Act :=
  if x.active.isEmpty then .next s
  else if x.w.holdsTile [t] then .wait s []
  else match s.badSlot x [t] with
    | some i => x.allTrap s (slotTrap i)
    | none =>
      if allow (x.w.tile t) == .trap then x.allTrap s (tileStateTrap t)
      else
        let r := s.tmovFibres x t b
        if r.1.isEmpty then x.allTrap s (tileShapeTrap t)
        else if allow (x.w.tile t) == .wait then .wait s []
        else act r.1 r.2

/-- TMOV.get: a long-latency producer; the image is read at issue. -/
def execTmovGet (g : Guard) (d : Reg) (t : TileReg) (b : Reg) (fb : Bool) (s : State) : Out :=
  .next (s.runIssue (some g) true false { src := [vop b fb], dst := [vop d], tiles := [t.val] } (fun x s =>
    x.tmov s t.val b Tile.readAllow (fun (ok : List (Lane × Nat)) (bad : List Lane) =>
      let img := (x.w.tile t.val).image
      let s := s.takeTraps x.key bad (fun _ => tileShapeTrap t.val)
      let y : Ctx := { x with active := ok.map (fun e => e.1) }
      let word := fun (l : Lane) =>
        BitVec.ofNat 32 (ofBytes (imgBytes img (4 * ((ok.find? (fun e => e.1 == l)).map (·.2) |>.getD 0)) 4))
      match y.produce s (fun f => f.entriesFrom d 1) (fun l f => (f, [word l])) with
      | .done s _ _ _ => .done s bad true false
      | a => a)))

/-- TMOV.set: a fill issued and completed in one step; the higher lane's word remains. -/
def execTmovSet (g : Guard) (v : Reg) (t : TileReg) (b : Reg) (fa fb : Bool) (s : State) : Out :=
  .next (s.runIssue (some g) true false { src := [vop v fa, vop b fb], tiles := [t.val] } (fun x s =>
    x.tmov s t.val b Tile.fillAllow (fun (ok : List (Lane × Nat)) (bad : List Lane) =>
      let s := s.takeTraps x.key bad (fun _ => tileShapeTrap t.val)
      .done (s.holdEffect x (.tile t.val (.words (ok.map (fun e => (e.2, (x.fibre e.1).val v)))))) bad true false)))

end Sys2Proof.Machine
end

