-- ==== Sys2Proof/Machine/Commands.lean ====
section
/-! DEFINITION. How commands leave a core: the completion of a conversion (R307), the end of a faulted command (R300, R301) and
the stop of a group's commands (R299). -/

namespace Sys2Proof.Machine

/-! ## Finding a command -/

/-- Change a command of a group, on its core or kept while the group is out. -/
def State.modCommand (s : State) (g : GroupKey) (n : Nat) (fn : Command → Command) : State :=
  match s.groupCore g with
  | some c => (match nget? (s.core c).cmds n with
    | some x => s.modCore c (fun k => { k with cmds := nput k.cmds n (fn x) })
    | none => s)
  | none => s.modGroup g (fun q => { q with cmds := q.cmds.map (fun x => if x.num = n then fn x else x) })

/-- An answer from another package to a command that is still there (R370). -/
def State.answerCommand (s : State) (o : PeerOut) (n : Nat) (fn : Command → Command) : State :=
  s.modCommand (s.groupKey o.key) n (fun x => if x.key = o.key ∧ x.seq = o.num then fn x else x)
/-- Does a command of a core await an answer of another package? -/
def State.awaits (s : State) (c : Nat) (x : Command) : Bool :=
  s.flows.any (fun f => f.1.1 == c && f.2.open_.any (fun o => o.cmd == some x.num && o.key == x.key && o.num == x.seq))

/-- Every command, with its group. -/
def State.allCommands (s : State) : List (GroupKey × Command) :=
  s.cores.flatMap (fun c => c.2.cmds.map (fun x => (s.groupKey x.2.key, x.2))) ++
  s.groups.flatMap (fun g => g.2.cmds.map (fun x => (g.1, x)))

/-- The group whose commands it concerns has its image written afresh when it is out or its cluster retained (R382 does the same
for a cause). -/
def State.refreshIfOut (s : State) (g : GroupKey) : State :=
  s.refreshImage g

/-! ## What completion and end have in common -/

/-- A read completion for each tile that the command raised a read issue on. -/
def State.readsDone (s : State) (x : Command) : State :=
  s.modWarp x.key (fun w => x.reads.foldl (fun w t => w.setTile t (w.tile t).readDone) w)
/-- The fill that the command raised completes with an image. -/
def State.fillsDone (s : State) (x : Command) (img : NMap Byte) : State :=
  s.modWarp x.key (fun w => x.fill.toList.foldl (fun w t => w.setTile t ((w.tile t).fillDone img)) w)
/-- The fill that the command raised ends unfinished. -/
def State.fillsEnded (s : State) (x : Command) : State :=
  s.modWarp x.key (fun w => x.fill.toList.foldl (fun w t => w.setTile t (w.tile t).fillEnded) w)
/-- Consume completion of an EPI (R283). -/
def State.consumeDone (s : State) (g : GroupKey) (x : Command) : State :=
  match x.instr with
  | .epi .. => s.modGroup g (·.consumed (s.accs x.key) x.slot)
  | _ => s
/-- The command's range locks are released. -/
def State.unlock (s : State) (g : GroupKey) (n : Nat) : State :=
  match s.groupCore g with
  | some c => s.modCore c (fun k => { k with locks := k.locks.filter (fun r => r.cmd != n) })
  | none => s.modGroup g (fun q => { q with locks := q.locks.filter (fun r => r.cmd != n) })
/-- The command's arrival at its completion barrier (R170). -/
def State.commandArrives (s : State) (g : GroupKey) (x : Command) : State :=
  if x.params.bv then s.engineArrive g x.params.bidx else s

/-! ## TCVT (R307) -/

/-- The image that a conversion makes: exact decoding, then the destination slot's format with the chosen mode. -/
def convertTile (ha ht : Shape) (img : NMap Byte) (mode : RMode) (gen : Word) : NMap Byte :=
  produceImage ht mode (slotSat ht.slot) (fun n => genSteps n gen) (elemVal ha img)

/-- A conversion completes: read completion on ta and fill completion on td. -/
def State.completeTcvt (s : State) (c : Nat) (x : Command) : State :=
  match x.instr, s.warp? x.key, x.fill with
  | .tcvt _ m mode ta _, some w, some td =>
    let ha := s.tileShape x.key (w.tile ta.val)
    let ht := s.tileShape x.key (w.tile td)
    let img := convertTile ha ht (w.tile ta.val).image (if m then mode else slotMode ht.slot) x.gen
    ((s.readsDone x).fillsDone x img).modCore c (·.dropCommand x.num)
  | _, _, _ => s.modCore c (·.dropCommand x.num)

/-! ## The engine fault record (R301) -/

/-- The opcode of a command. -/
def Command.opc (x : Command) : Nat := x.w0.toNat / 2 ^ 24
/-- The 24 bytes of the record, as a number. -/
def Command.faultBytes (x : Command) (cause reason addr : Nat) (stopped : Bool) (n : Nat) : Nat :=
  cause + x.opc * 2 ^ 8 + reason * 2 ^ 16 + fieldBit stopped 24 + x.params.vec n * 2 ^ 32 + addr % 2 ^ 64 * 2 ^ 128
/-- The fault-queue record of a stopped or ended command (R301, R316). -/
def Command.queueRecord (x : Command) (c : Nat) : FaultRec :=
  { cause := 0x23, reason := x.fault / 2 ^ 16 % 256, flags := flagEngine, index := x.num, lid := x.key.lid, warp := x.key.w,
    mask := 2 ^ x.lane, addr := x.fault / 2 ^ 128, pc := x.pc, hdr := x.hdr, place := placeWord c, engrec := x.fault % 2 ^ 128 }

/-! ## The end of a command (R300) -/

/-- The deferred ENGINE_FAULT of an ended command (R313): TRINFO0 its cause, opcode and reason, TRINFO1 the low address. -/
def Command.cause (x : Command) : Deferred :=
  { cause := engineFault, info0 := BitVec.ofNat 32 (x.fault % 2 ^ 24), info1 := BitVec.ofNat 32 (x.fault / 2 ^ 128),
    source := .command x.num }

/-- Steps 2 to 7 of R300, and the cause for the issuing fibre; the command keeps its number until the cause is taken (R297).
When that fibre has quit, no one is left to take it and the number is free at once. -/
def State.endCommand (s : State) (g : GroupKey) (x : Command) : State :=
  let s := (((s.fillsEnded x).readsDone x).consumeDone g x).unlock g x.num
  let s := s.commandArrives g x
  let s := if (s.fibre? x.key x.lane).isSome then
      (s.modWarp x.key (·.defer 0 x.lane x.cause)).modCommand g x.num (fun y => { y with stage := .ended })
    else match s.groupCore g with
      | some c => s.modCore c (·.dropCommand x.num)
      | none => s.modGroup g (fun q => { q with cmds := q.cmds.filter (fun y => y.num != x.num) })
  (s.refreshIfOut g).reapGroup g

/-! ## Stopping the commands of a core (R299) -/

/-- A stopped command's stage: it is to be admitted again; a command that a fault stopped, or that ended, stays so. -/
def CmdStage.pause : CmdStage → CmdStage
  | .admitted | .waiting => .paused
  | x => x

/-- Is a group being stopped: pre-empted, shed or drained (R299)? -/
def State.stopsGroup (s : State) (g : GroupKey) : Bool :=
  s.grid.draining || (s.group? g).any (fun q => q.stopping && !(q.waitsRoom && s.front.poolFull)) || s.warps.any (fun w => s.groupKey w.1 == g && w.2.stopMark)

/-- The measured energy of a command of core c that completed or stopped: an excess over what it declared is a debt of its
cluster and a violation of its launch (R350). -/
def State.chargeEnergy (s : State) (c : Nat) (x : Command) (measured : Nat) : State :=
  if measured ≤ x.params.energy then s
  else
    let s := s.modCluster (clusterOf c) (fun k => { k with
      debt := k.debt + (measured - x.params.energy), viol := min (k.viol + 1) (2 ^ 32 - 1) })
    let n := (kget? s.front.violCnt x.key.lid).getD 0
    { s with front := { s.front with violCnt := kput s.front.violCnt x.key.lid (min (n + 1) (2 ^ 32 - 1)) } }
/-- A command stops: its stage, and its energy when it was admitted; what it measured at a stop is a free value. -/
def State.pauseCommand (s : State) (g : GroupKey) (c : Nat) (x : Command) (stage : CmdStage) : State :=
  let s := if x.stage = .admitted then s.chargeEnergy c x (Config.stopEnergy s.tick c x.num) else s
  s.modCommand g x.num (fun y => { y with stage := stage, answers := [] })

/-- Does the command run between two stop points? A fault that was serviced let it start inside a granule (R300), or another package
has performed a write of the iteration it is in. -/
def Command.midGranule (x : Command) : Bool :=
  x.stage == .admitted && decide (x.num < 32) && (x.done % x.params.span != 0 || !x.written.isEmpty)
/-- Can every command of a core stop where it stands? -/
def State.commandsAtStop (s : State) (c : Nat) : Bool := (s.core c).cmds.all (fun e => !e.2.midGranule && !s.awaits c e.2)
/-- Every command of the core stops: what it has done is in O, and it holds its locks. A command of the group that leaves is
paused, and a conversion of it completes; any other is to be admitted again. -/
def State.stopCommands (s : State) (g : GroupKey) (c : Nat) : State :=
  ((s.core c).cmds.map (·.2)).foldl (fun s x =>
    let own := s.groupKey x.key == g
    if 32 ≤ x.num then (if own then s.completeTcvt c x else s)
    else if own then s.pauseCommand g c x x.stage.pause
    else if x.stage = .admitted then s.pauseCommand (s.groupKey x.key) c x .waiting
    else s) s

end Sys2Proof.Machine
end

