-- ==== Sys2Proof/Machine/Hub.lean ====
section
/-! DEFINITION. The hub router: the tables of R377, interests, tiles, ends and retirements (R378 to R382), and local faces. -/

namespace Sys2Proof.Machine

/-! ## Routes and the fabric (R369, R375) -/

/-- NEXT of the lowest valid entry that matches a name (R375, R378). -/
def Router.next (r : Router) (n : Name) : Option Nat :=
  ((List.range 256).find? fun k =>
    let e := ngetD r.nrt {} k
    e.ctl.getLsbD 31 && decide (e.ctl.toNat % 2 ^ 13 ≤ 4607) && e.tensor == n.tensor && (n.index &&& e.mask) == e.value).map
    fun k => (ngetD r.nrt {} k).ctl.toNat % 2 ^ 13
/-! ## Local faces (R381, R382) -/

/-- Is the warp's group on a core? -/
def State.isResident (s : State) (k : WarpKey) : Bool := (s.coreOf k).isSome

/-- A fill ends unfinished: the tile becomes empty, and the issuing fibre of its NAME.GET has a deferred cause (R381). The
image of a group that is out takes it too (R382). -/
def State.endFill (s : State) (k : WarpKey) (t : Nat) (cause : BitVec 8) (reason : Nat) (info0 info1 : Word) : State :=
  match s.warp? k with
  | none => s
  | some w =>
    let x := w.tile t
    let w := w.setTile t { x.fillEnded with cause := some (cause, reason) }
    let w := w.defer 0 x.lane { cause := cause, info0 := info0, info1 := info1, source := .namedTile t }
    let s := s.setWarp k w
    s.refreshImage (s.groupKey k)

/-- A face of a name ends with a cause and reason. -/
def State.endFace (s : State) (n : Name) (f : Face) (cause : BitVec 8) (reason : Nat) : State :=
  match f with
  | .consumer k t => s.endFill k t cause reason (BitVec.ofNat 32 (t + reason * 16)) n.tensor
  | .package p => s.sendTo p (.ended p n (cause == nameRetired) reason)

/-- Does a tile on its way match the destination's control word and format slot (R381)? -/
def Tile.matches_ (t : Tile) (l : Launch) (x : NamedTile) : Bool :=
  t.ctl.toNat / 8 % 2 ^ 16 == x.control.toNat / 8 % 2 ^ 16 &&
  ((t.shape l).slot &&& 0xC0FFF) == (x.slot &&& 0xC0FFF)

/-- Write a delivered tile (R279, R381). -/
def State.writeTile (s : State) (k : WarpKey) (t : Nat) (x : NamedTile) : State :=
  (s.modWarp k (fun w => w.setTile t ((w.tile t).fillDone ((s.tileShape k (w.tile t)).imgOf x.image)))).refreshImage (s.groupKey k)

/-- Send a tile to a face; answers whether the tile must be pinned for it (R381, R382). -/
def State.sendTile (s : State) (n : Name) (x : NamedTile) (f : Face) : State × Bool :=
  match f with
  | .package p => (s.sendTo p (.tile p n x false), false)
  | .consumer k t =>
    match s.launch? k.lid, s.warp? k with
    | some l, some w =>
      if !(w.tile t).matches_ l x then (s.endFill k t Machine.tileShape 0 (BitVec.ofNat 32 t) 0, false)
      else if s.isResident k then (s.writeTile k t x, false)
      else (s, true)
    | _, _ => (s, false)

/-! ## The tile store (R377, R380) -/

def StoredTile.size (t : StoredTile) : Nat := t.tile.image.length
def storedBytes (l : List StoredTile) : Nat := (l.map StoredTile.size).foldl (· + ·) 0
/-- Remove the first element that meets a condition. -/
def dropFirst {α : Type} (f : α → Bool) : List α → List α
  | [] => []
  | a :: l => if f a then l else a :: dropFirst f l
/-- Evict the least recently used tiles that are not pinned until the store is within its size. -/
def trimStore : (fuel : Nat) → List StoredTile → List StoredTile
  | 0, l => l
  | n + 1, l =>
    if l.length ≤ 16384 ∧ storedBytes l ≤ 2 ^ 26 then l
    else if l.any (fun t => t.pins.isEmpty) then trimStore n (dropFirst (fun t => t.pins.isEmpty) l)
    else l
/-- The copy of a name that the hub serves. -/
def Router.copyOf (r : Router) (n : Name) : Option StoredTile := r.store.find? (fun t => t.name == n && t.served)
/-- The copies of a name are served no more; each that arrived for a swapped-out group stays for it (R382; DEDUCED, log entry 97). -/
def dropCopy (n : Name) (l : List StoredTile) : List StoredTile :=
  (l.map (fun t => if t.name = n then { t with served := false } else t)).filter (fun t => t.served || !t.pins.isEmpty)
/-- Put a tile in the store, replacing an older copy. -/
def Router.store_ (r : Router) (n : Name) (x : NamedTile) (pins : List (WarpKey × Nat)) : Router :=
  let l := dropCopy n r.store ++ [⟨n, x, pins, true⟩]
  { r with store := trimStore l.length l }
/-- A stored tile was used: it is the most recently used. -/
def Router.touch (r : Router) (t : StoredTile) : Router :=
  { r with store := r.store.filter (fun u => !(u.name == t.name && u.served)) ++ [t] }


/-! ## The handlers -/

/-- Refuse an interest for want of room (R378). -/
def State.refuseInterest (s : State) (n : Name) (f : Face) : State :=
  (s.endFace n f nameExpired 2).modRouter (fun r => { r with nameRef := min 0xFFFFFFFF (r.nameRef + 1) })

/-- OnInterest (R378). -/
def State.onInterest (s : State) (n : Name) (f : Face) (life : Nat) : State :=
  let r := s.router
  if r.retiredNames.contains n then s.endFace n f nameRetired 3
  else match r.copyOf n with
    | some t =>
      let d := s.sendTile n t.tile f
      d.1.modRouter (fun r => r.touch { t with pins := t.pins ++ (match d.2, f with
        | true, .consumer k i => [(k, i)]
        | _, _ => []) })
    | none =>
      let x := r.now + life
      match kget? r.pit n with
      | some fs =>
        if fs.any (fun e => e.1 == f) then
          s.modRouter (fun r => { r with pit := kput r.pit n (fs.map (fun e => if e.1 = f then (f, max e.2 x) else e)) })
        else if 16 ≤ fs.length then s.refuseInterest n f
        else s.modRouter (fun r => { r with pit := kput r.pit n (fs ++ [(f, x)]) })
      | none =>
        if 4096 ≤ r.pit.length then s.refuseInterest n f
        else match r.next n with
          | none => s.endFace n f nameExpired 1
          | some p =>
            if p = s.domid then s.modRouter (fun r => { r with pit := kput r.pit n [(f, x)] })
            else if !r.reaches p then s.endFace n f nameExpired 1
            else (s.modRouter (fun r => { r with pit := kput r.pit n [(f, x)] })).send (.interest p n (life - 1))

/-- OnTile (R380); `up` marks a tile that comes from NAME.PUB, here or at a hub on the way to the producing hub. -/
def State.onTile (s : State) (n : Name) (x : NamedTile) (up : Bool) : State :=
  let fs := (kget? s.router.pit n).getD []
  let d := (fs.filter (fun e => decide (s.router.now ≤ e.2))).foldl (fun (acc : State × List (WarpKey × Nat)) e =>
    let r := acc.1.sendTile n x e.1
    (r.1, if r.2 then (match e.1 with
      | .consumer k t => acc.2 ++ [(k, t)]
      | .package _ => acc.2) else acc.2)) (s, [])
  let s := d.1.modRouter fun r =>
    ({ r with pit := kdel r.pit n, retiredNames := r.retiredNames.filter (· != n) } : Router).store_ n x d.2
  match up, s.router.next n with
  | true, some p => if p = s.domid then s else s.sendTo p (.tile p n x true)
  | _, _ => s

/-- An End reaches the hub: every face of the name's entry ends (R381). -/
def State.onEnd (s : State) (n : Name) (cause : BitVec 8) (reason : Nat) : State :=
  let fs := (kget? s.router.pit n).getD []
  fs.foldl (fun s e => s.endFace n e.1 cause reason) (s.modRouter (fun r => { r with pit := kdel r.pit n }))

/-- A Retire reaches the hub (R383). -/
def State.onRetire (s : State) (n : Name) : State :=
  match s.router.next n with
  | none => s
  | some p =>
    if p ≠ s.domid then s.sendTo p (.retire p n)
    else
      let s := s.modRouter fun r =>
        { r with retiredNames := ((r.retiredNames.filter (· != n)) ++ [n]).drop
                   ((r.retiredNames.filter (· != n)).length + 1 - 1024)
                 store := dropCopy n r.store }
      s.onEnd n nameRetired 3

/-- The faces that expire at the end of this microsecond are removed, and the hub's clock moves on (R379). -/
def State.expireFaces (s : State) : State :=
  let now := s.router.now
  let gone := s.router.pit.flatMap (fun e => (e.2.filter (fun f => decide (f.2 ≤ now))).map (fun f => (e.1, f.1)))
  let s := s.modRouter fun r =>
    { r with now := now + 1
             pit := (r.pit.map (fun e => (e.1, e.2.filter (fun f => !decide (f.2 ≤ now))))).filter (fun e => !e.2.isEmpty) }
  gone.foldl (fun s e => match e.2 with
    | .consumer _ _ => s.endFace e.1 e.2 nameExpired 0
    | .package _ => s) s

/-- The pinned tiles of a group that is placed again are written (R328, R382). -/
def State.deliverPinned (s : State) (g : GroupKey) : State :=
  let mine := s.router.store.flatMap (fun t => (t.pins.filter (fun p => s.groupKey p.1 == g)).map (fun p => (t.tile, p)))
  let s := mine.foldl (fun s e => s.writeTile e.2.1 e.2.2 e.1) s
  s.modRouter (fun r => { r with store := unpin (fun k => s.groupKey k == g) r.store })

/-! ## The steps of the hub -/

/-- A name from a message's numbers. -/
def nameOf (tensor tile iter : Nat) : Name := ⟨BitVec.ofNat 32 tensor, BitVec.ofNat 32 tile, BitVec.ofNat 32 iter⟩

/-- INTEREST (R378): an interest from another package's hub. -/
def execInterestMsg (src tensor tile iter life : Nat) (s : State) : Out :=
  .next (s.onInterest (nameOf tensor tile iter) (.package src) life)

/-- TILE (R380): a tile from another package's hub. -/
def execTileMsg (tensor tile iter control slot : Nat) (image : List (BitVec 8)) (up : Bool) (s : State) : Out :=
  .next (s.onTile (nameOf tensor tile iter) ⟨BitVec.ofNat 32 control, BitVec.ofNat 32 slot, image⟩ up)

/-- END (R381). -/
def execEndMsg (tensor tile iter : Nat) (retired : Bool) (reason : Nat) (s : State) : Out :=
  .next (s.onEnd (nameOf tensor tile iter) (if retired then nameRetired else nameExpired) reason)

/-- RETIRE (R383). -/
def execRetireMsg (tensor tile iter : Nat) (s : State) : Out := .next (s.onRetire (nameOf tensor tile iter))

/-- FACE_EXPIRY (R379). -/
def execFaceExpiry (s : State) : Out := .next s.expireFaces

end Sys2Proof.Machine
end

