-- ==== Sys2Proof/Machine/Faults.lean ====
section
/-! DEFINITION. The answers to service records (R318): resume, deliver and end, for a logged access, a fetch, a poisoned access or
flush, and a stopped command; and the ring's control (R317). -/

namespace Sys2Proof.Machine

/-! ## Records that wait for an answer -/

/-- The record of a die with a TAG that waits for its answer. -/
def State.openRecord (s : State) (d : Nat) (tag : Word) : Option FaultRec :=
  (s.die d).fq.open_.find? (fun r => r.tag == tag)
/-- The record is answered: it waits no more, for the die and for its group. -/
def State.closeRecord (s : State) (d : Nat) (tag : Word) : State :=
  let s := s.modDie d (fun x => { x with fq := { x.fq with open_ := x.fq.open_.filter (fun r => r.tag != tag) } })
  { s with groups := s.groups.map (fun g => (g.1, { g.2 with records := g.2.records.filter (· != (d, tag)) })) }

/-- The warp a record names. -/
def FaultRec.key (r : FaultRec) : WarpKey := ⟨r.lid, r.warp⟩
def FaultRec.lanes (r : FaultRec) : List Lane := bitsOf 64 r.mask
def FaultRec.hasFlag (r : FaultRec) (f : Nat) : Bool := r.flags / f % 2 == 1

/-- A change that reached the warps of a group: the image of a group that is out holds it too. -/
def State.touched (s : State) (r : FaultRec) : State := s.refreshIfOut (s.groupKey r.key)

/-! ## A held flush (R334) -/

/-- The combining-buffer entry that a record holds, with its core. -/
def State.heldEntry (s : State) (d : Nat) (tag : Word) : Option (Nat × CombEntry) :=
  (s.cores.flatMap (fun c => c.2.comb.map (fun e => (c.1, e)))).find? (fun x => x.2.held == some (d, tag))
/-- A held reduction of a deterministic launch whose record this was: `retry` it, or discard it; what stands behind it for its word
is then tried (R246, R334). -/
def State.answerHeldRed (s : State) (d : Nat) (tag : Word) (retry : Bool) : State :=
  match s.heldReds.find? (fun r => r.held == some (d, tag)) with
  | none => s
  | some r =>
    let reds := if retry then s.heldReds.map (fun q => if q = r then { q with held := none } else q) else s.heldReds.erase r
    ({ s with heldReds := reds } : State).retryDue (r.pa / 4)
/-- Resume retries the flush. -/
def State.resumeFlush (s : State) (d : Nat) (tag : Word) : State :=
  match s.heldEntry d tag with
  | some (c, e) =>
    let e' := { e with held := none }
    (s.modCore c (fun k => { k with comb := replaceEntry e (some e') k.comb })).flushEntry c e'
  | none => s.answerHeldRed d tag true
/-- Deliver and end discard the update. -/
def State.dropFlush (s : State) (d : Nat) (tag : Word) : State :=
  match s.heldEntry d tag with
  | some (c, e) => s.modCore c (fun k => { k with comb := replaceEntry e none k.comb })
  | none => s.answerHeldRed d tag false

/-! ## A logged access (R223, R318) -/

/-- The log entry that a record names. -/
def State.loggedEntry (s : State) (d : Nat) (tag : Word) (r : FaultRec) : Option (Nat × LogEntry) :=
  (s.warp? r.key).bind (fun w => w.log.find? (fun e => e.2.tag == tag && e.2.die == d))

/-- Resume: the entry is answered, and replayed now or when its group is placed again (R319). -/
def State.resumeLogged (s : State) (d : Nat) (tag : Word) (r : FaultRec) : State :=
  match s.loggedEntry d tag r with
  | some (i, e) =>
    let s := s.modWarp r.key (fun w => { w with log := nput w.log i { e with answered := true } })
    (if s.isResident r.key then s.replay r.key i else s).touched r
  | none => s

/-- The entries of a lane's logged access. -/
def LogEntry.dstOf (e : LogEntry) (l : Lane) : List Nat := ((e.dst.find? (fun a => a.1 == l)).map (·.2)).getD []
def LogEntry.addrOf (e : LogEntry) (l : Lane) : Nat := ((e.addrs.find? (fun a => a.1 == l)).map (·.2.toNat)).getD 0

/-- The fibres of an entry take a cause as a deferred one. A fibre that has a recorded cause already keeps its place in the
entry until this one's turn (R315). -/
def State.deferLogged (s : State) (k : WarpKey) (i : Nat) (e : LogEntry) (ls : List Lane) (cause : BitVec 8) (reason : Nat) :
    State :=
  let s := if ls == e.mask then s.modWarp k (fun w => { w with log := nput w.log i { e with tag := 0 } }) else s
  let s := ls.foldl (fun s l =>
    let busy := ((s.fibre? k l).map (fun f => !f.causes.isEmpty)).getD false
    let s := s.modWarp k (·.defer e.num l
      { cause := cause, reason := reason, info0 := BitVec.ofNat 32 (e.addrOf l), info1 := BitVec.ofNat 32 (e.addrOf l / 2 ^ 32),
        source := .access (e.dstOf l), log := if busy then some i else none })
    if busy then s else s.modWarp k (fun w => { w with log := dropLane w.log i l })) s
  if e.acted && ls == e.mask then s.countLogged k e.num else s

/-- Deliver: the entry is freed, and its cause is deferred to its fibres. -/
def State.deliverLogged (s : State) (d : Nat) (tag : Word) (r : FaultRec) : State :=
  match s.loggedEntry d tag r with
  | some (i, e) => (s.deferLogged r.key i e e.mask (BitVec.ofNat 8 r.cause) r.reason).touched r
  | none => s

/-! ## A warp that waits on a fetch or on poison (R316, R318) -/

/-- The warp waits no more. -/
def State.unpark (s : State) (d : Nat) (tag : Word) (k : WarpKey) : State :=
  s.modWarp k (fun w => { w with parked := if w.parked = some (d, tag) then none else w.parked })

/-- Resume: the fetch, or the access, is tried again; a replay that met poison goes on. -/
def State.resumeParked (s : State) (d : Nat) (tag : Word) (r : FaultRec) : State :=
  let s := (s.unpark d tag r.key).modWarp r.key (fun w => { w with pend := w.pend.map (fun p =>
    if p.stage = .poisoned d tag then { p with stage := .waiting } else p) })
  let again : List Nat := match s.warp? r.key with
    | some w => (w.log.filter (fun (e : Nat × LogEntry) => e.2.answered)).map (fun e => e.1)
    | none => []
  (if s.isResident r.key then again.foldl (fun s i => s.replay r.key i) s else s).touched r

/-- The destination entries that an outstanding item leaves empty in a lane. -/
def Pend.dstOf (p : Pend) (l : Lane) : List Nat :=
  match p.kind with
  | .load _ _ _ dst | .launch _ dst => if p.lane = l then dst else []
  | .atom _ dst _ => ((dst.find? (fun e => e.1 == l)).map (·.2)).getD []
  | _ => []
/-- The lanes of an item. -/
def Pend.lanes (p : Pend) : List Lane :=
  match p.kind with
  | .atom us _ _ => (us.map (·.lane)).eraseDups
  | _ => [p.lane]
/-- The virtual address of a lane's access. -/
def Pend.addrOf (p : Pend) (l : Lane) : Nat := ((p.ops.find? (fun e => e.1 == l)).map (·.2.1)).getD p.va

/-- A deferred cause of one lane of an item that will not be performed. -/
def Pend.cause (p : Pend) (l : Lane) (cause : BitVec 8) (reason : Nat) (indet : Bool) (log : Option Nat) : Deferred :=
  { cause := cause, reason := reason, indet := indet, info0 := BitVec.ofNat 32 (p.addrOf l),
    info1 := BitVec.ofNat 32 (p.addrOf l / 2 ^ 32), source := .access (p.dstOf l), log := log }

/-- Deliver: the cause is deferred to each fibre of the record. The item that met poison, and the other half of a straddling
access of the same fibre, are given up. A fetch that cannot be made leaves its fibres no other point at which to take the
cause, so they take it at once, at the header, as a deferred one. -/
def State.deliverParked (s : State) (d : Nat) (tag : Word) (r : FaultRec) : State :=
  let s := s.unpark d tag r.key
  let cause := BitVec.ofNat 8 r.cause
  let s : State := match s.warp? r.key with
    | none => s
    | some (w : Warp) =>
      if r.hasFlag flagFetch then
        (r.lanes.foldl (fun (s : State) l => s.takeTrapAt r.key l
          { cause := cause, reason := r.reason, deferred := true, info0 := r.hdr } r.pc r.hdr) s).modWarp r.key
          (fun w => { w with sel := none })
      else
        match w.pend.find? (fun (p : Pend) => p.stage == .poisoned d tag) with
        | some p =>
          let w := p.lanes.foldl (fun (w : Warp) l => w.defer p.num l (p.cause l cause r.reason false none)) w
          s.setWarp r.key { w with pend := w.pend.filter (fun q =>
            !(q.num == p.num && (q.stage == .poisoned d tag || (match q.kind with
              | .atom us _ _ => us.any (fun u => u.straddles && p.lanes.contains u.lane)
              | _ => false)))) }
        | none =>
          match w.log.find? (fun (e : Nat × LogEntry) => e.2.answered && !(e.2.mask.filter r.lanes.contains).isEmpty) with
          | some (i, e) => s.deferLogged r.key i e (e.mask.filter r.lanes.contains) cause r.reason
          | none => s.setWarp r.key (r.lanes.foldl (fun (w : Warp) l => w.defer w.issues l
              { cause := cause, reason := r.reason, info0 := BitVec.ofNat 32 r.addr, info1 := BitVec.ofNat 32 (r.addr / 2 ^ 32),
                source := .access [] }) w)
  s.touched r

/-! ## A stopped command (R301, R318) -/

/-- The command that waits on a record. -/
def State.stoppedCommand (s : State) (d : Nat) (tag : Word) : Option (GroupKey × Command) :=
  s.allCommands.find? (fun x => x.2.record == some (d, tag) && x.2.stage == .stopped)

/-- Resume: it restarts from its vector, admitted again; in a group that is out, once that is placed. -/
def State.resumeCommand (s : State) (d : Nat) (tag : Word) : State :=
  match s.stoppedCommand d tag with
  | some (g, x) =>
    (s.modCommand g x.num (fun y => { y with
      stage := if (s.groupCore g).isSome then .waiting else .paused, record := none, fault := 0 })).refreshIfOut g
  | none => s
/-- Deliver: it is ended under R300, with STOPPED 0 in what its fibre sees. -/
def State.deliverCommand (s : State) (d : Nat) (tag : Word) : State :=
  match s.stoppedCommand d tag with
  | some (g, x) => s.endCommand g { x with fault := if x.fault.testBit 24 then x.fault - 2 ^ 24 else x.fault, record := none }
  | none => s

/-! ## The answer (R318) -/

/-- End: the group ends with the record's cause; its FATAL record keeps the subject of the record answered. -/
def State.endByRecord (s : State) (r : FaultRec) : State :=
  s.endGroup (s.groupKey r.key) r

/-- The answer to the record TAG of a die: 0 resume, 1 deliver, 2 end. Any other action, and a TAG that names no waiting
record, is ignored (R317). -/
def State.answer (s : State) (d : Nat) (tag : Word) (action : Nat) : State :=
  match s.openRecord d tag with
  | none => s
  | some r =>
    if 2 < action then s
    else
      let s := s.closeRecord d tag
      let flush := r.hasFlag flagFlush
      let logged := r.hasFlag flagLogged
      let engine := r.hasFlag flagEngine
      match action with
      | 0 => if flush then s.resumeFlush d tag else if logged then s.resumeLogged d tag r
        else if engine then s.resumeCommand d tag else s.resumeParked d tag r
      | 1 => if flush then s.dropFlush d tag else if logged then s.deliverLogged d tag r
        else if engine then s.deliverCommand d tag else s.deliverParked d tag r
      | _ => (if flush then s.dropFlush d tag else s).endByRecord r

/-- FQRESP resume (R318). -/
def execFqrespResume (die : Nat) (tag : BitVec 32) (s : State) : Out := .next (s.answer die tag 0)
/-- FQRESP deliver. -/
def execFqrespDeliver (die : Nat) (tag : BitVec 32) (s : State) : Out := .next (s.answer die tag 1)
/-- FQRESP end. -/
def execFqrespEnd (die : Nat) (tag : BitVec 32) (s : State) : Out := .next (s.answer die tag 2)

/-! ## The ring (R316, R317) -/

/-- Does memory of the package back n bytes from a package-local address at the service level (R212, R317)? -/
def State.backs (s : State) (a n : Nat) : Bool :=
  n == 0 || (match s.region a, s.region (a + n - 1) with
    | .near d, .near e => decide (d ≤ e)
    | .far, .far => true
    | _, _ => false)

/-- A write to FQCTL: setting EN starts the ring empty at the runtime's index, or sets CFGERR; while EN is 1 LOG2N does not
change; clearing EN keeps both indices. -/
def State.writeFqctl (s : State) (d : Nat) (v : Word) : State :=
  s.modDie d fun x =>
    let q := x.fq
    let new := v &&& 0x3F
    { x with fq :=
      if q.enabled then { q with ctl := (q.ctl &&& 0x1F) ||| (new &&& 0x20) }
      else if !v.getLsbD 5 then { q with ctl := new }
      else
        let n := v.toNat % 32
        if 4 ≤ n ∧ n ≤ 16 ∧ q.base / 2 ^ 43 = 0 ∧ s.backs q.base (64 * 2 ^ n) = true then { q with ctl := new, prod := q.cons }
        else { q with ctl := new &&& 0x1F, cfgerr := true } }

/-- FQCTL_WRITE (R317). -/
def execFqctlWrite (die : Nat) (v : BitVec 32) (s : State) : Out := .next (s.writeFqctl die v)
/-- FAULT_RECORD_POST (R316). -/
def execFaultRecordPost (die : Nat) (s : State) : Out := .next (s.postRecord die)

end Sys2Proof.Machine
end

