-- ==== Sys2Proof/Machine/Preempt.lean ====
section
/-! DEFINITION. Where a warp may be pre-empted (R56), where it stops to leave its core (R321, R348), and what is settled before
anything moves. -/

namespace Sys2Proof.Machine

/-- Would the warp be pre-empted where it stands? At a header that its next fibres have not entered, at an operand or a
wait-mask condition that its instruction waits for, on a service record, or in the wait of a barrier, REG.GROW or STEP. -/
def State.atPoint (s : State) (k : WarpKey) (w : Warp) : Bool :=
  w.ended || (w.spec.isNone && (w.parked.isSome || (match w.waiting with
    | .none => (match w.sel with
      | some x => x.blocked || (w.mask != 0 && !s.maskMet k w) || w.atHeader
      | none => w.atHeader)
    | .icinv _ _ => false
    | _ => true)))

/-! ## Queued atomics and stops (R244, R245, R367) -/

/-- The ordering count of an atomic that returns a value and is still in the gate. -/
def Pend.gatedOrder (p : Pend) : Option Nat :=
  match p.kind, p.stage with
  | .atom us dst _, .waiting | .atom us dst _, .poisoned _ _ => if !dst.isEmpty && us.any (fun u => match u.loc with
      | .mem _ => true
      | .scr _ _ => false) then some p.key.1 else none
  | _, _ => none
/-- The least ordering count with which a warp may still issue an atomic: its own; under an unresolved FENCE, that of the
boundary to which it may roll back; those of its logged accesses, which are still to be made; and those of its atomics in the gate,
which a rollback may take back (R330). -/
def Warp.ownOrder (w : Warp) : Nat :=
  let own := match w.spec with
    | some f => ((w.undo.find? (fun u => u.num == f.num)).map (fun u => u.before.retired + w.lift)).getD w.order
    | none => w.order
  ((w.log.filter (fun e => e.2.tag != 0)).map (·.2.order.1) ++ w.pend.filterMap (·.gatedOrder)).foldl min own
/-- Does a key precede another (R244)? -/
def keyLess (a b : Nat × Nat × Nat) : Bool :=
  decide (a.1 < b.1) || (a.1 == b.1 && (decide (a.2.1 < b.2.1) || (a.2.1 == b.2.1 && decide (a.2.2 < b.2.2))))
/-- The memory atomics of a launch that return a value and are not yet applied, at their slice or on their way to it. -/
def State.detAtoms (s : State) (lid : Word) : List (WarpKey × Pend) :=
  (s.warps.filter (fun e => e.1.lid == lid)).flatMap (fun e => (e.2.pend.filter (fun p => match p.kind with
    | .atom us dst _ => !dst.isEmpty && !p.stage.isSent && us.any (fun u => s.isOwnMem u.loc)
    | _ => false)).map (fun p => (e.1, p)))
/-- Has a group to leave its core: for a swap-out, or marked for shedding (R321, R348)? -/
def State.isLeaving (s : State) (g : GroupKey) : Bool :=
  (s.group? g).any (·.stopping) || (s.warpsOf g).any (fun k => (s.warp? k).any (fun w => w.stopMark || w.shedMark))
/-- Does a stop of the warp keep an atomic of its launch from its slice's hand, that a group which has to leave waits for? The key of
the atomic follows what the warp may still issue, so the warp goes on until it has passed it; R367 wants the run to be independent
of the swap-out (DEDUCED, log entry 133). -/
def State.holdsBack (s : State) (k : WarpKey) (w : Warp) : Bool :=
  s.isDet k && (s.detAtoms k.lid).any (fun x => !keyLess x.2.key (w.ownOrder, 0, 0) &&
    (s.grid.draining || s.groupKey x.1 == s.groupKey k || s.isLeaving (s.groupKey x.1)))

/-- A warp that must stop does so at such a point and stays there; one that need not any more goes on. -/
def State.stopAt (s : State) (k : WarpKey) (w : Warp) : Warp :=
  if s.mustStop k w && !s.holdsBack k w then (if !w.stopped && s.atPoint k w then { w with stopped := true } else w)
  else if w.stopped then { w with stopped := false } else w
/-- The warps of resident groups that have reached their stop are stopped (R321, step 1; R348). -/
def State.settleStops (s : State) : State :=
  { s with warps := s.warps.map (fun e => (e.1, if (s.coreOf e.1).isSome then s.stopAt e.1 e.2 else e.2)) }

/-- What is settled before a step moves anyone: warps that stop to leave their cores, and turns that have become free. -/
def State.settled (s : State) : State := s.settleStops.giveTurns

end Sys2Proof.Machine
end

