-- ==== Sys2Proof/Machine/Placement.lean ====
section
/-! DEFINITION. Where groups stand: swap-out into the save pool (R319, R321, R322), the fit and weight of cores, the first
placement of a gang and its restoration (R178, R184, R328), and grants of REG.GROW (R189, R191). -/

namespace Sys2Proof.Machine

/-! ## When a group may leave -/

/-- Has nothing of the warp to leave its core first? What waits on poison stays outstanding. -/
def Warp.drained (w : Warp) : Bool :=
  w.pend.all (fun p => match p.stage with
    | .poisoned _ _ => true
    | _ => false)

/-- Is the group in a retained cluster (R352)? -/
def State.isRetained (s : State) (g : GroupKey) : Bool :=
  ((s.groupCore g).map (fun c => (s.cluster (clusterOf c)).retained)).getD false

/-- May the group leave its core now (R321 steps 1, 2, 4 and 5; R348)? -/
def State.mayLeave (s : State) (g : GroupKey) : Bool :=
  match s.group? g with
  | none => false
  | some q => !s.isRetained g && (s.groupCore g).all s.commandsAtStop && (s.warpsOf g).all (fun k => match s.warp? k with
    | none => true
    | some w => w.ended && w.drained || ((w.stopped || s.atPoint k w) && w.drained &&
        (q.stopping || s.mustStop k w)))

/-! ## Leaving a core (R321) -/

/-- Steps 2 and 3: commands stop, and the warps' entries of the combining buffer are flushed. -/
def State.settleGroup (s : State) (g : GroupKey) (c : Nat) : State :=
  (s.warpsOf g).foldl (fun s k => s.flushWarp k) (s.stopCommands g c)

/-- The lesser of two horizons that may not have been published. -/
def lesserHorizon (a b : Option (Nat × Nat × Nat)) : Option (Nat × Nat × Nat) :=
  match a, b with
  | some x, some y => some (if keyLess x y then x else y)
  | _, _ => none
/-- The warps of a group that leaves a core are the front end's to publish: until it publishes anew, its horizon of their launch is
no greater than what the core published (R245). -/
def State.horizonOut (s : State) (c : Nat) (lid : Word) : State :=
  let h := kget? (s.core c).horizon lid
  let others := s.warps.any (fun e => e.1.lid == lid && (s.coreOf e.1).isNone)
  let h := if others then lesserHorizon (kget? s.front.horizon lid) h else h
  { s with front := { s.front with horizon := kset s.front.horizon lid h } }

/-- Step 7: the group's resources are freed; its commands and their locks stay with it (R299). -/
def State.leaveCore (s : State) (g : GroupKey) (c : Nat) (place : GroupPlace) : State :=
  let cs := s.groupCommands g c
  let nums := cs.map (·.num)
  let locks := (s.core c).locks.filter (fun r => nums.contains r.cmd)
  let shed := (s.warpsOf g).any (fun k => ((s.warp? k).map (·.shedMark)).getD false)
  let s := (s.horizonOut c g.lid).modCore c (fun k => { k with
    cmds := k.cmds.filter (fun e => !nums.contains e.1), locks := k.locks.filter (fun r => !nums.contains r.cmd) })
  let s := s.modGroup g (fun q => { q with place := place, cmds := cs, locks := locks, lastCore := c, stopping := false, waitsRoom := false })
  let s := (s.warpsOf g).foldl (fun s k => s.modWarp k (fun w => { w with
    mask := 0, loop := none, stopMark := false, stopped := false, shedMark := false, oldSteering := none, yielded := false })) s
  let s := if shed then s.modLaunch g.lid (fun l => { l with whole := l.cores || l.whole }) else s
  s.clearHint c g.lid

/-! ## The save pool (R322) -/

def State.poolBase (s : State) : Nat := s.front.spoolHi.toNat * 2 ^ 32 + s.front.spoolLo.toNat
def State.poolEnd (s : State) : Nat := s.poolBase + s.front.spoolSz * 65536
/-- The images that lie in the pool. -/
def State.pooled (s : State) : List (Nat × Nat) :=
  s.groups.filterMap (fun g => match g.2.place with
    | .saved a n => some (a, n)
    | _ => none)
/-- The lowest place in the pool with room for n bytes. -/
def State.poolRoom (s : State) (n : Nat) : Option Nat :=
  let used := s.pooled
  leastOf ((s.poolBase :: used.map (fun e => align256 (e.1 + e.2))).filter (fun a =>
    decide (a + n ≤ s.poolEnd) && used.all (fun e => !overlaps a n e.1 e.2)))

/-- One group of a gang leaves for the pool, if there is room for its image. -/
def State.swapOne (s : State) (g : GroupKey) : Option State :=
  match s.groupCore g with
  | none => some s
  | some c =>
    let t := s.settleGroup g c
    let img := t.image g
    (t.poolRoom img.length).map (fun a => (t.leaveCore g c (.saved a img.length)).writeOutside a img)
/-- The groups of a group's gang. -/
def State.gangKeys (s : State) (g : GroupKey) : List GroupKey :=
  match s.launch? g.lid with
  | none => [g]
  | some l => (l.gangGroups (l.gangOf g.g)).map (fun i => ⟨g.lid, i⟩)
/-- The swap-out of groups waits for room in the pool (R322). -/
def State.waitForRoom (s : State) (gs : List GroupKey) : State :=
  let s := gs.foldl (fun s g => s.modGroup g (fun q => { q with waitsRoom := true })) s
  { s with front := { s.front with poolFull := true } }
/-- A gang is swapped out together (R204): its images go into the pool, or it stays and waits for room. -/
def State.swapOut (s : State) (g : GroupKey) : State :=
  let gs := (s.gangKeys g).filter (fun k => (s.groupCore k).isSome)
  if gs.isEmpty || !gs.all s.mayLeave || s.grid.draining then s
  else match gs.foldl (fun (o : Option State) k => o.bind (fun s => s.swapOne k)) (some s) with
    | none => s.waitForRoom gs
    | some t => t

/-- SWAP_OUT (R321). -/
def execSwapOut (lid : BitVec 32) (g : Nat) (s : State) : Out := .next (s.swapOut ⟨lid, g⟩)

/-- SERVICE_SWAP_OUT (R319): a group that has waited longer than DELAY leaves, with its gang. -/
def execServiceSwapOut (lid : BitVec 32) (g : Nat) (s : State) : Out :=
  let k : GroupKey := ⟨lid, g⟩
  .next (match s.groupCore k, s.group? k with
    | some c, some q =>
      if q.records.isEmpty || (s.die (dieOf c)).fq.delay == 0 then s
      else (s.modGroup k (fun q => { q with forService := true })).requestSwap k
    | _, _ => s)

/-- SWAPREQ (R322): the group that SWAPREQ_LID and the written value name leaves, with its gang. -/
def execSwapreq (v : BitVec 32) (s : State) : Out :=
  .next (if (s.groupCore ⟨s.front.swapLid, v.toNat⟩).isSome then s.requestSwap ⟨s.front.swapLid, v.toNat⟩ else s)

/-! ## What fits where (R184) -/

/-- The core clock in force, in tenths of a GHz (R2, R345, R347). -/
def State.clockTenths (s : State) : Nat :=
  let most := if s.level = 1 then 15 else 30
  if s.grid.backstop then 12
  else if s.grid.stage = 7 then (match s.grid.sub with
    | 1 => min most 24 | 2 => min most 18 | _ => 12)
  else most

/-- Live width of a core for a launch (R138). -/
def CoreState.width (k : CoreState) (prot : Bool) : Nat := if prot then k.pairs else k.liveLanes.length
/-- The weight of a core. -/
def State.weight (s : State) (prot : Bool) (c : Nat) : Nat := (s.core c).width prot * s.clockTenths
/-- May groups be placed on a core's cluster (R352, R395)? -/
def State.clusterOpen (s : State) (c : Nat) : Bool :=
  let k := ngetD s.clusters {} (clusterOf c)
  !k.retained && !k.testing

/-- What a group will take of a core: at its first placement, or at its present allocation; with its grown size when it left to end
a stall (R184, R191). -/
def State.needs (s : State) (l : Launch) (g : GroupKey) : Needs :=
  match s.group? g with
  | none =>
    { warps := l.record.warps, entries := l.record.warps * l.width * l.record.regs, scratch := l.record.scratch,
      tiles := l.record.tiles, accs := l.record.accs }
  | some q =>
    let ws := ((s.warpsOf g).filterMap s.warp?).filter (fun w => !w.ended)
    { warps := ws.length, entries := (ws.map (fun w => l.width * (if q.forStall then w.wants else w.alloc))).foldl (· + ·) 0, scratch := l.record.scratch,
      tiles := l.record.tiles, accs := l.record.accs, cmds := q.cmds.length, locks := q.locks.length }

/-- Does a group fit on a core beside what stands there? -/
def State.fits (s : State) (l : Launch) (n : Needs) (c : Nat) : Bool :=
  s.clusterOpen c && decide (0 < s.weight l.prot c) && (n.add (s.coreHolds c)).within (s.core c)

/-- The places of a gang on a die, each as its cores in rank order: cores, quads or clusters. -/
def sitesOf (gang d : Nat) : List (List Nat) :=
  (List.range (384 / gang)).map (fun i => (List.range gang).map (fun r => 384 * d + gang * i + r))

/-- The groups of a gang that have not ended, by rank. -/
def State.gangMembers (s : State) (l : Launch) (gang : Nat) : List (Nat × GroupKey) :=
  ((List.range l.record.gang).map (fun r => (r, (⟨l.record.lid, gang * l.record.gang + r⟩ : GroupKey)))).filter
    (fun e => decide (l.placed ≤ gang) || (s.group? e.2).isSome)

/-- The place of greatest weight where a gang fits, the lowest on a tie; `dies` are those of its launch. -/
def State.siteFor (s : State) (l : Launch) (gang : Nat) (dies : List Nat) : Option (List Nat) :=
  let ms := s.gangMembers l gang
  let ok := fun (site : List Nat) => ms.all (fun e => s.fits l (s.needs l e.2) (site.getD e.1 0))
  let w := fun (site : List Nat) => (leastOf (site.map (s.weight l.prot))).getD 0
  ((sortBy id dies).flatMap (fun d => (sitesOf l.record.gang d).filter ok)).foldl (fun best site => match best with
    | none => some site
    | some b => if w b < w site then some site else some b) none

/-! ## First placement (R178) -/

/-- How many fibres a warp of a group holds (R177). -/
def Launch.fibresOf (l : Launch) (i : Nat) : Nat :=
  let f := if l.record.fibres = 0 then l.record.warps * l.width else l.record.fibres
  if i + 1 < l.record.warps then l.width else f - (l.record.warps - 1) * l.width

/-- A fibre as it is created. -/
def Launch.newFibre (l : Launch) (k : WarpKey) (lane : Lane) : Fibre :=
  { pc := l.record.entry, hdr := l.record.entry, gen := genSeed l.record.seed (identity k lane) }
/-- A warp as it is created. -/
def Launch.newWarp (l : Launch) (k : WarpKey) : Warp :=
  let i := k.w % l.record.warps
  let w : Warp := { warpid := i, alloc := l.record.regs,
                    slots := (List.range (l.fibresOf i)).map (fun lane => (lane, l.newFibre k lane)) }
  ((w.setS64 0 l.record.param).setS 2 (BitVec.ofNat 32 (groupIndex l k.w))).setS 3 (BitVec.ofNat 32 i)

/-- Create a group on a core. -/
def State.createGroup (s : State) (l : Launch) (g : GroupKey) (c : Nat) : State :=
  let s := (s.setGroup g { place := .resident c, home := dieOf c, lastCore := c }).modCore c (fun k => { k with horizon := kdel k.horizon g.lid })
  (s.warpsOf g).foldl (fun s k => s.setWarp k (l.newWarp k)) s

/-! ## Restoration (R328) -/

/-- The lowest number of a list's complement from n up. -/
def freeFrom (n : Nat) (used : List Nat) : Nat :=
  ((List.range (used.length + 1)).find? (fun i => !used.contains (n + i))).getD 0 + n

/-- The numbers that commands take on a core where some are used: each its own where it is free, else the lowest free one. -/
def newNumbers (used : List Nat) : List Nat → List (Nat × Nat)
  | [] => []
  | n :: l =>
    let m := if used.contains n then freeFrom 0 (used ++ l) else n
    (n, m) :: newNumbers (m :: used) l
/-- A cause of a command under the command's new number. -/
def Deferred.renumber (d : Deferred) (f : Nat → Nat) : Deferred :=
  match d.source with
  | .command n => { d with source := .command (f n) }
  | _ => d
/-- The commands of a restored group go to its core: a number that another command holds there is replaced by the lowest
free one, in the locks and causes too (R297), all at once. A paused command is to be admitted again (R310). -/
def State.bringCommands (s : State) (g : GroupKey) (c : Nat) : State :=
  match s.group? g with
  | none => s
  | some q =>
    let names := newNumbers ((s.core c).cmds.map (·.1)) (q.cmds.map (·.num))
    let named := fun (n : Nat) => ((names.find? (fun e => e.1 == n)).map (·.2)).getD n
    let again := fun (x : Command) => { x with num := named x.num, stage := if x.stage = .paused then .waiting else x.stage }
    let s := (s.setGroup g { q with cmds := [], locks := [] }).modCore c (fun k => { k with
      cmds := q.cmds.foldl (fun m x => nput m (named x.num) (again x)) k.cmds
      locks := k.locks ++ q.locks.map (fun r => { r with cmd := named r.cmd }) })
    let recaused := fun (f : Fibre) => { f with causes := f.causes.map (·.renumber named) }
    (s.warpsOf g).foldl (fun s k => s.modWarp k (fun w => { w with slots := nmap (fun _ f => recaused f) w.slots })) s

/-- The bytes of a group's image, where it lies. -/
def State.imageBytes (s : State) (g : GroupKey) : List Byte :=
  match s.group? g with
  | none => []
  | some q => match q.place with
    | .saved a n => memBytes s.mem a n
    | .flash o n => (List.range n).map (fun i => ngetD s.flash 0 (o + i))
    | .image b => b
    | .resident _ => []

/-- Replay the log entries of a group that were answered while it was out (R319). -/
def State.replayAnswered (s : State) (g : GroupKey) : State :=
  (s.warpsOf g).foldl (fun s k => match s.warp? k with
    | some w => ((w.log.filter (fun e => e.2.answered)).map (·.1)).foldl (fun s i => s.replay k i) s
    | none => s) s

/-- A request of REG.GROW is granted (R189, R191). -/
def Warp.granted (w : Warp) : Warp :=
  match w.waiting with
  | .grow a => { w with alloc := max w.alloc a, released := true }
  | _ => w

/-- Restore a group on a core from its image; the turn starts afresh (R152). A group that left to end a stall comes back with its
requests of REG.GROW granted (R191); the warps of any other wait again (R56). -/
def State.restoreGroup (s : State) (g : GroupKey) (c : Nat) : State :=
  let s := { s with front := { s.front with poolFull := false } }
  let stall := ((s.group? g).map (·.forStall)).getD false
  let s := (s.ofImage g (s.imageBytes g)).modGroup g (fun q => { q with
    place := .resident c, stopping := false, forService := false, forStall := false })
  let s := s.bringCommands g c
  let s := if stall then (s.warpsOf g).foldl (fun s k => s.modWarp k (·.granted)) s else s
  let s := s.modCore c (fun k => { k with turn := kdel k.turn g.lid, horizon := kdel k.horizon g.lid })
  ((s.deliverPinned g).replayAnswered g)

/-- Place a gang on the cores of a site: each group is created or restored. -/
def State.placeGang (s : State) (l : Launch) (gang : Nat) (site : List Nat) : State :=
  let first := decide (l.placed ≤ gang)
  let s := (s.gangMembers l gang).foldl (fun s e =>
    let c := site.getD e.1 0
    if first then s.createGroup l e.2 c else s.restoreGroup e.2 c) s
  if first then s.modLaunch l.record.lid (fun l => { l with placed := l.placed + 1 }) else s

/-! ## The distributors (R184) -/

/-- How many gangs a launch has. -/
def Launch.gangs (l : Launch) : Nat := l.record.groups / l.record.gang
/-- Is a class shed, so that nothing of it is placed or started (R345, R346)? -/
def Grid.sheds (g : Grid) (cls : Nat) : Bool :=
  (cls == 3 && decide (3 ≤ g.stage)) || (cls == 2 && decide (4 ≤ g.stage)) || (cls == 1 && decide (6 ≤ g.stage))

/-- Is a gang out and ready to come back: none of its groups is resident, and none waits for its service? -/
def State.gangOut (s : State) (l : Launch) (gang : Nat) : Bool :=
  let qs := (s.gangMembers l gang).filterMap (fun e => s.group? e.2)
  !qs.isEmpty && qs.all (fun q => (match q.place with
    | .resident _ => false
    | _ => true) && (!q.forService || q.records.isEmpty))

/-- The gangs of a launch in the order of placement: those that were out, then the next new one. -/
def State.gangQueue (s : State) (l : Launch) : List Nat :=
  (List.range l.placed).filter (s.gangOut l) ++ (if l.placed < l.gangs then [l.placed] else [])

/-- Place every gang of a launch that is placed whole, or none. -/
def State.placeWhole (s : State) (l : Launch) (gangs : List Nat) : Option State :=
  gangs.foldl (fun acc g => acc.bind fun (s : State) => (s.launch? l.record.lid).bind fun l =>
    (s.siteFor l g l.dies).map (s.placeGang l g)) (some s)

/-- The home of a resident group is the die it stands on (R173). -/
def Group.atHome (g : Group) : Group :=
  match g.place with
  | .resident c => { g with home := dieOf c }
  | _ => g
/-- The homes of the resident groups of a launch; a group that has ended stands on no die of the new membership. -/
def State.rehomed (s : State) (lid : Word) : State :=
  ({ s with groups := s.groups.map (fun (g : GroupKey × Group) => (g.1, if g.1.lid == lid then g.2.atHome else g.2)) } : State).modLaunch
    lid (fun l => { l with homes := [] })
/-- The die, package and domain barriers that a launch has on this package. -/
def Launch.wideBarriers (l : Launch) : List BarKey :=
  l.dies.flatMap (fun d => (List.range 8).map (fun i => ⟨l.record.lid, .die, d, i⟩)) ++
  (List.range 4).map (fun i => ⟨l.record.lid, .package, 0, i⟩) ++ (List.range 4).map (fun i => ⟨l.record.lid, .domain, 0, i⟩)
/-- How many members an instance has after a change of dies: those of its warps that have not ended, and the warps of a domain
launch on the other packages (DEDUCED, log entry 115). -/
def State.newE (s : State) (b : BarKey) : Nat :=
  ((s.members b).filter (fun k => ((s.warp? k).map (fun w => !w.ended)).getD false)).length +
  (if b.scope = .domain then ((s.launch? b.lid).map (·.domainOthers)).getD 0 else 0)
/-- The wide barriers of a launch take the default E of the new membership; count and engines become 0, parity is kept (R173). -/
def State.rebased (s : State) (lid : Word) : State :=
  match s.launch? lid with
  | none => s
  | some l =>
    if !l.widebar then s
    else
      let old := (s.bars.map (·.1)).filter (fun b => b.lid == lid && b.scope == .die && !l.dies.contains b.inst)
      (old ++ l.wideBarriers).foldl (fun s b => s.setBarrier b { s.barrier b with e := s.newE b, count := 0, engines := 0, top := 0 }) s
/-- A launch that was placed whole on new dies: its groups' homes, and the E of its die barriers (R173). -/
def State.settleHomes (s : State) (lid : Word) : State :=
  match s.launch? lid with
  | none => s
  | some l =>
    if !l.rehome then s
    else
      let s := s.rehomed lid
      let s := if l.rebase then s.rebased lid else s
      s.modLaunch lid (fun l => { l with rehome := false, rebase := false })

/-- Must the launch be placed whole now? -/
def Launch.placedWhole (l : Launch) : Bool := l.cores && (l.whole || l.placed == 0)
/-- Is every gang of the launch that remains out, or never placed? -/
def State.wholeOut (s : State) (l : Launch) : Bool :=
  (List.range l.placed).all (fun g => (s.gangMembers l g).isEmpty || s.gangOut l g)

/-- Place the next gang of one launch, or the whole of a co-resident one; none when nothing can be placed. -/
def State.placeFor (s : State) (l : Launch) : Option State :=
  if s.grid.sheds (l.record.cls % 4) then none
  else if l.placedWhole then
    if s.wholeOut l then
      let gangs := (List.range l.gangs).filter (fun g => decide (l.placed ≤ g) || s.gangOut l g)
      if gangs.isEmpty then none
      else (s.placeWhole l gangs).map (fun s => (s.modLaunch l.record.lid (fun l => { l with whole := false })).settleHomes l.record.lid)
    else none
  else
    let place := fun (g : Nat) => (s.siteFor l g l.dies).map (s.placeGang l g)
    -- A gang of a co-resident launch re-enters on its own as soon as it fits; of any other, the next gang alone is tried: when it
    -- fits nowhere, the distributor goes on to the next launch.
    if l.cores then (s.gangQueue l).findSome? place else (s.gangQueue l).head?.bind place

/-- The launches whose groups are placed, in the order of R183: the lower class first, and within a class as they started. -/
def State.startedLaunches (s : State) : List Launch :=
  sortBy (fun l => l.record.cls % 4) (sortBy (·.started) ((s.launches.map (·.2)).filter (fun l => l.stage == .running)))

/-- A launch all of whose groups are placed leaves its queue (R183, R185). -/
def State.leaveQueue (s : State) (lid : Word) : State :=
  match s.launch? lid with
  | none => s
  | some l =>
    if l.placed < l.gangs then s
    else
      let f := s.front
      { s with front := { f with
        queues := f.queues.map (fun e => (e.1, if e.2.head = some lid then { e.2 with head := none } else e.2))
        device := f.device.filter (· != lid) } }

/-- Once every drained group has been placed, VALID clears and RESUMED sets (R357); vector 10 is raised (R386). -/
def State.drainPlaced (s : State) : State :=
  if !s.grid.valid || s.grid.down || s.groups.any (fun g => match g.2.place with
    | .flash _ _ => true
    | _ => false) then s
  else ({ s with grid := { s.grid with valid := false, resumed := true } } : State).send (.vector 10)

/-- GANG_PLACEMENT (R184): the first launch, in order, of which something can be placed. -/
def execGangPlacement (s : State) : Out :=
  .next (if s.grid.down then s
    else ((s.startedLaunches.findSome? (fun l => (s.placeFor l).map (fun s => s.leaveQueue l.record.lid))).getD s).drainPlaced)

/-! ## REG.GROW (R189, R191) -/

/-- The warps of a core that wait in REG.GROW without a grant, as (class, lid, w) and what they ask. -/
def State.growers (s : State) (c : Nat) : List (WarpKey × Nat) :=
  sortBy (fun e => (((s.launch? e.1.lid).map (·.record.cls % 4)).getD 0 * 2 ^ 32 + e.1.lid.toNat) * 2 ^ 48 + e.1.w)
    (((s.groupsOn c).flatMap s.warpsOf).filterMap (fun k => (s.warp? k).bind fun w => match w.waiting with
      | .grow a => if w.released then none else some (k, a)
      | _ => none))
/-- Keep the first waiter of each launch: it blocks those behind it. -/
def firstOfEach : List Word → List (WarpKey × Nat) → List (WarpKey × Nat)
  | _, [] => []
  | seen, e :: l => if seen.contains e.1.lid then firstOfEach seen l else e :: firstOfEach (e.1.lid :: seen) l

/-- The next grant of a core, if one is due (R189). -/
def State.dueGrant (s : State) (c : Nat) : Option (WarpKey × Nat) :=
  let free := (s.core c).entries - (s.coreHolds c).entries
  let more := fun (e : WarpKey × Nat) => s.widthOf e.1 * (e.2 - ((s.warp? e.1).map (·.alloc)).getD 0)
  (firstOfEach [] (s.growers c)).find? (fun e => decide (more e ≤ free))
/-- REG_GROW_GRANT (R189): the next grant of a core. -/
def execRegGrowGrant (core : Nat) (s : State) : Out :=
  .next (match s.dueGrant core with
    | some e => s.modWarp e.1 (·.granted)
    | none => s)

/-- Is a core stalled (R191)? A waiter whose grant is due waits no more. -/
def State.stalled (s : State) (c : Nat) : Bool :=
  !(s.growers c).isEmpty && (s.dueGrant c).isNone && ((s.groupsOn c).flatMap s.warpsOf).all (fun k => match s.warp? k with
    | none => true
    | some w => w.ended || (match w.waiting with
      | .grow _ => !w.released
      | .barrier o => o.scope == .core && s.stillWaits k w
      | _ => false))

/-- STALL_SWAP_OUT (R191): the group of the waiter with the highest key leaves. -/
def execStallSwapOut (core : Nat) (s : State) : Out :=
  .next (if s.stalled core then (match (s.growers core).getLast? with
    | some e => (s.modGroup (s.groupKey e.1) (fun q => { q with forStall := true })).requestSwap (s.groupKey e.1)
    | none => s) else s)

end Sys2Proof.Machine
end

