-- ==== Sys2Proof/Machine/Grid.lean ====
section
/-! DEFINITION. Power that follows the grid: Utwell frames (R340, R341), the droop curve and the target (R343, R344), the throttle
order (R345 to R347), shedding (R348), and the grid block's registers (R342). -/

namespace Sys2Proof.Machine

def State.modGrid (s : State) (fn : Grid → Grid) : State := { s with grid := fn s.grid }

/-! ## The curve and the target -/

/-- DEV of a breakpoint, two's complement. -/
def bpDev (b : Word) : Int := (b.extractLsb' 16 16).toInt
/-- CEIL of a breakpoint. -/
def bpCeil (b : Word) : Nat := b.toNat % 2 ^ 16
/-- Do the DEV values not decrease? -/
def bpOrdered : List Word → Bool
  | a :: b :: l => decide (bpDev a ≤ bpDev b) && bpOrdered (b :: l)
  | _ => true
/-- PMAX in force: at most 3,700. -/
def Grid.maxCeil (g : Grid) : Nat := min g.pmax 3700

/-- The ceiling between breakpoints: `a` is the greatest whose DEV is at most δ, `b` the one after it. -/
def bpBetween (δ : Int) (a b : Word) : Nat :=
  ((bpCeil a : Int) + Int.fdiv (((bpCeil b : Int) - bpCeil a) * (δ - bpDev a)) (bpDev b - bpDev a)).toNat
/-- The ceiling at δ from breakpoints of which the first has DEV at most δ. -/
def bpAt (δ : Int) : List Word → Nat
  | a :: b :: l => if bpDev b ≤ δ then bpAt δ (b :: l) else bpBetween δ a b
  | [a] => bpCeil a
  | [] => 0

/-- The curve ceiling (R341, R343). Where breakpoints share one DEV the highest of them applies from that DEV upward. -/
def Grid.curve (g : Grid) : Nat :=
  let δ : Int := (g.freq : Int) - g.fnom
  if g.linkLost then g.fsafe
  else if !g.curveEn || decide (δ.natAbs ≤ g.dband) || !bpOrdered g.bp then g.maxCeil
  else match g.bp with
    | [] => g.maxCeil
    | a :: l => if δ < bpDev a then bpCeil a else bpAt δ (a :: l)

/-- TARGET (R344). -/
def Grid.aim (g : Grid) : Nat := min g.maxCeil (min g.curve g.stepCeil)
/-- TARGET is formed again; UNMET says whether it lies below the floor of 1,200 W (R347), and vector 9 is raised when it
sets (R386). -/
def State.reform (s : State) : State :=
  let unmet := decide (s.grid.aim < 1200)
  let t := s.modGrid (fun g => { g with target := g.aim, unmet := unmet })
  if unmet && !s.grid.unmet then t.send (.vector 9) else t

/-! ## Frames -/

/-- A frame's 12 bytes with its CRC. -/
def frameOf (l : List Byte) : List Byte := padTo 12 l ++ bytesOf 4 (crc32 (padTo 12 l)).toNat
/-- Is a frame to be accepted: 16 bytes, a good CRC, a known TYPE and zero reserved bytes? -/
def frameOk (f : List Byte) : Bool :=
  decide (f.length = 16) && numAt f 12 4 == (crc32 (f.take 12)).toNat &&
  (if numAt f 0 1 = 1 then numAt f 8 4 == 0 else numAt f 0 1 == 2 && numAt f 6 6 == 0)

/-- A discarded frame is counted. -/
def State.discardFrame (s : State) : State := s.modGrid (fun g => { g with frameErr := min (g.frameErr + 1) (2 ^ 32 - 1) })

/-- A valid telemetry frame. -/
def State.telemetry (s : State) (f : List Byte) : State :=
  (s.modGrid (fun g => { g with freq := numAt f 2 4, vbus := numAt f 6 2, linkLost := false })).reform

/-- A valid step frame: a repeat is ignored; with STEPEN 0 it is acknowledged with UNMET 1 and ignored. During a drain it is
ignored (R355). -/
def State.stepFrame (s : State) (f : List Byte) : State :=
  let id := numAt f 2 2
  if s.grid.down || s.grid.lastStep == some id then s
  else if !s.grid.stepEn then s.modGrid (fun g => { g with acks := g.acks ++ [(id, true)] })
  else (s.modGrid (fun g => { g with
    stepId := id, stepCeil := numAt f 4 2, lastStep := some id, acks := g.acks ++ [(id, false)] })).reform

/-- A frame arrives from the shelf; a package without a module has no connector for it (R1). One that lowers TARGET starts the 600 µs
of the backstop (R347). -/
def State.frame (s : State) (f : List Byte) : State :=
  if !s.onModule then s
  else if !frameOk f then s.discardFrame
  else
    let t := if numAt f 0 1 = 1 then s.telemetry f else s.stepFrame f
    if t.grid.target < s.grid.target then t.modGrid (fun g => { g with falls := g.falls + 1 }) else t

/-- The acknowledgement of the oldest accepted step frame that has none. -/
def State.acknowledge (s : State) : State :=
  match s.grid.acks with
  | [] => s
  | (id, ignored) :: rest =>
    let g := s.grid
    let body := bytesOf 1 0x81 ++ bytesOf 1 g.ackSeq ++ bytesOf 2 id ++ bytesOf 2 g.pmeas ++
      bytesOf 1 (fieldBit (ignored || g.unmet) 0 + fieldBit g.backstop 1)
    (s.modGrid (fun g => { g with acks := rest, ackSeq := (g.ackSeq + 1) % 256 })).send (.ack (frameOf body))

/-- TELEMETRY_FRAME (R340). -/
def execTelemetryFrame (frame : List (BitVec 8)) (s : State) : Out := .next (s.frame frame)
/-- STEP_FRAME (R340). -/
def execStepFrame (frame : List (BitVec 8)) (s : State) : Out := .next (s.frame frame)
/-- DISCARDED_FRAME (R340). -/
def execDiscardedFrame (s : State) : Out := .next s.discardFrame
/-- STEP_ACKNOWLEDGEMENT (R340). -/
def execStepAcknowledgement (s : State) : Out := .next s.acknowledge
/-- LINK_LOST (R341): LINKLOST sets, and the curve ceiling is FSAFE from now on. -/
def execLinkLost (s : State) : Out :=
  .next (if s.grid.linkLost then s
    else ((s.modGrid (fun g => { g with linkLost := true })).reform).send (.vector 9))
/-- FRAMEERR_READ (R342). -/
def execFrameerrRead (s : State) : Out := .next (s.regRead 0x2058).1

/-! ## The throttle order (R345, R346) -/

/-- The actions in their order, as (STAGE, SUB). -/
def throttleOrder : List (Nat × Nat) :=
  [(0, 0), (1, 0), (2, 0), (3, 0), (4, 0), (5, 1), (5, 2), (6, 0), (7, 1), (7, 2), (7, 3)]
/-- The element of a list after a given one. -/
def after (x : Nat × Nat) : List (Nat × Nat) → Option (Nat × Nat)
  | a :: b :: l => if a = x then some b else after x (b :: l)
  | _ => none
/-- The class that a stage sheds. -/
def shedClass (stage : Nat) : Option Nat :=
  match stage with
  | 3 => some 3 | 4 => some 2 | 6 => some 1 | _ => none
/-- Is a group resident? -/
def Group.isResident (g : Group) : Bool :=
  match g.place with
  | .resident _ => true
  | _ => false
/-- Every resident group of a class is marked (R348). -/
def State.markClass (s : State) (cls : Nat) : State :=
  (s.groups.filter (fun e => e.2.isResident && ((s.launch? e.1.lid).map (·.record.cls % 4)).getD 0 == cls)).foldl
    (fun s e => (s.warpsOf e.1).foldl (fun s k => s.modWarp k (fun w => { w with shedMark := true })) s) s
/-- Stage 1 aborts a running in-field test (R395): the cluster returns, and nothing retires. -/
def State.abortTest (s : State) : State :=
  if s.boot.iftStat ≠ 1 then s else s.applyTest.endTest 5

/-- The next action is engaged: every action is applied in full at once, so the one before is exhausted. -/
def State.engage (s : State) : State :=
  match after (s.grid.stage, s.grid.sub) throttleOrder with
  | none => s
  | some (st, sub) =>
    let s := s.modGrid (fun g => { g with stage := st, sub := sub })
    match shedClass st with
    | some c => s.markClass c
    | none => if st = 1 then s.abortTest else s
/-- The last action is released. -/
def Grid.release (g : Grid) : Grid :=
  match after (g.stage, g.sub) throttleOrder.reverse with
  | some (st, sub) => { g with stage := st, sub := sub }
  | none => g

/-- One interval of 50 µs. `quiet` counts the intervals for which PMEAS has been at or below TARGET - HYST; the backstop
releases under the same condition (R347). -/
def State.throttle (s : State) (power : Nat) : State :=
  let s := s.modGrid (fun g => { g with pmeas := min power 65535 })
  let g := s.grid
  if g.target < g.pmeas then (s.modGrid (fun g => { g with quiet := 0 })).engage
  else if g.target < g.pmeas + g.hyst then s.modGrid (fun g => { g with quiet := 0 })
  else if g.quiet + 1 < 2 * max 1 g.rstGap then s.modGrid (fun g => { g with quiet := g.quiet + 1 })
  else s.modGrid (fun g => { g.release with quiet := 0, backstop := false })

/-- THROTTLE_INTERVAL (R345). In a drain the ceiling no longer applies (R355). -/
def execThrottleInterval (power : Nat) (s : State) : Out := .next (if s.grid.down then s else s.throttle power)
/-- BACKSTOP (R347): 600 µs after a frame that lowered TARGET, the backstop engages if power is still over it. -/
def execBackstop (s : State) : Out :=
  .next (if s.grid.falls = 0 then s
    else
      let s := s.modGrid (fun g => { g with falls := g.falls - 1 })
      if s.grid.backstop || s.grid.down || decide (s.grid.pmeas ≤ s.grid.target) then s
      else (s.modGrid (fun g => { g with backstop := true })).send (.vector 9))

/-- The class of a warp's launch. -/
def State.classOf (s : State) (k : WarpKey) : Nat := ((s.launch? k.lid).map (·.record.cls % 4)).getD 0
/-- SHED_DEADLINE (R348): the marked warps of the class whose deadline comes first, the highest, stop at their next point. -/
def execShedDeadline (s : State) : Out :=
  let ws := s.warps.filter (fun e => e.2.shedMark && !e.2.stopMark)
  let cls := ws.foldl (fun m e => max m (s.classOf e.1)) 0
  .next ((ws.filter (fun e => s.classOf e.1 == cls)).foldl
    (fun s e => s.modWarp e.1 (fun w => { w with stopMark := true })) s)

/-! ## The grid block's registers (R342) -/

/-- The new value of the grid after a write. The order of the breakpoints is checked when one of them is written (R343). -/
def Grid.write (g : Grid) (off : Nat) (v : Word) : Grid :=
  let lo := v.toNat % 2 ^ 16
  if 0x10 ≤ off ∧ off < 0x30 then
    let bp := g.bp.set ((off - 0x10) / 4) v
    { g with bp := bp, cfgErr := g.cfgErr || !bpOrdered bp }
  else match off with
    | 0x00 => { g with stepEn := v.getLsbD 1, curveEn := v.getLsbD 0 }
    | 0x04 => { g with cfgErr := g.cfgErr && !v.getLsbD 6 }
    | 0x08 => { g with fnom := v.toNat }
    | 0x0C => { g with dband := lo }
    | 0x30 => { g with pmax := lo }
    | 0x34 => { g with fsafe := lo }
    | 0x38 => { g with shedDl := min 800 (max 100 lo) }
    | 0x3C => { g with rstGap := lo }
    | 0x40 => { g with hyst := lo }
    | 0x5C => { g with resumed := g.resumed && !v.getLsbD 0 }
    | _ => g
/-- A write to a grid register forms TARGET again (R344); a change of DRAINSTAT raises vector 10 (R386). -/
def State.writeGrid (s : State) (off : Nat) (v : Word) : State :=
  let t := (s.modGrid (fun g => g.write off v)).reform
  if t.grid.resumed = s.grid.resumed then t else t.send (.vector 10)
/-- GRID_CONFIG_WRITE (R344). -/
def execGridConfigWrite (offset : Nat) (v : BitVec 32) (s : State) : Out :=
  .next (if offset % 4 = 0 then s.writeGrid offset v else s)

end Sys2Proof.Machine
end

