-- ==== Sys2Proof/Machine/Cluster.lean ====
section
/-! DEFINITION. Clusters under the power controller: the admission of engine commands (R310, R350), near-threshold lane groups
and steering (R142, R143, R351), and cluster retention (R352 to R354). -/

namespace Sys2Proof.Machine

/-! ## Admission (R310, R350) -/

/-- REFILL scaled by stage 5, which stays engaged behind every later stage. -/
def State.refill (s : State) (k : Cluster) : Nat :=
  max 1 k.refill / (if s.grid.stage < 5 then 1 else if s.grid.stage = 5 ∧ s.grid.sub = 1 then 2 else 4)
/-- The start of an interval of 8 µs in one cluster. -/
def Cluster.interval (k : Cluster) (r : Nat) : Cluster :=
  if r < k.debt then { k with debt := k.debt - r, blocked := true }
  else { k with bal := min (k.bal + r - k.debt) (max r 65535), debt := 0, blocked := false }
/-- ADMISSION_INTERVAL: every cluster's interval starts. -/
def execAdmissionInterval (s : State) : Out :=
  .next (if s.grid.down then s
    else (List.range 48).foldl (fun s i => s.modCluster i (fun k => k.interval (s.refill k))) s)

/-- The commands of a cluster's cores, with their cores. -/
def State.clusterCommands (s : State) (i : Nat) : List (Nat × Command) :=
  (List.range 32).flatMap (fun c => ((s.core (32 * i + c)).cmds.map (fun e => (32 * i + c, e.2))))
/-- The PEAK of every admitted command that has not completed or stopped. -/
def State.admittedPeak (s : State) (i : Nat) : Nat :=
  (((s.clusterCommands i).filter (fun e => e.2.stage == .admitted && decide (e.2.num < 32))).map (·.2.params.peak)).foldl (· + ·) 0
/-- The command that a core offers: the oldest not yet admitted, once it is out of the gate; a core passes its commands on in issue
order. -/
def CoreState.offer (k : CoreState) : Option Command :=
  ((inOrder ((k.cmds.map (·.2)).filter (fun x => (x.stage == .waiting || x.stage == .gated) && decide (x.num < 32)))).head?).filter
    (fun x => x.stage == .waiting)
/-- Would the cluster admit the command now? A command that a stop of its group waits for is admitted again on resumption
(R299). -/
def State.admits (s : State) (i : Nat) (x : Command) : Bool :=
  let k := s.cluster i
  !k.blocked && !k.retained && !s.stopsGroup (s.groupKey x.key) && decide (x.params.energy ≤ k.bal) && decide (x.params.peak + s.admittedPeak i ≤ k.peak)
/-- The first core after the last one that had a command admitted, whose offer is admitted. -/
def State.nextAdmission (s : State) (i : Nat) : Option (Nat × Command) :=
  (List.range 32).findSome? (fun j =>
    let c := ((s.cluster i).lastCore + 1 + j) % 32
    match (s.core (32 * i + c)).offer with
    | some x => if s.admits i x then some (c, x) else none
    | none => none)
/-- Admit the next command of a cluster: ENERGY is debited. -/
def State.admitNext (s : State) (i : Nat) : State :=
  match s.nextAdmission i with
  | none => s
  | some (c, x) =>
    (s.modCluster i (fun k => { k with bal := k.bal - x.params.energy, lastCore := c })).modCore (32 * i + c)
      (fun q => { q with cmds := nput q.cmds x.num { x with stage := .admitted } })
/-- COMMAND_ADMISSION (R310). -/
def execCommandAdmission (cluster : Nat) (s : State) : Out := .next (if s.grid.down then s else s.admitNext cluster)

/-! ## Lane groups (R351) and steering (R142, R143) -/

/-- How many lane groups one hint asks for: `used` is ⌈4u⌉. -/
def hintGroups (h : PwrHint) (used : Nat) : Nat :=
  match h with
  | .computeBound => 4
  | .memoryBound => 1
  | .automatic => max 1 (min 4 used)
/-- How many lane groups the launches on a core ask for: the greatest number, and two while a protected group is there. -/
def State.wantedGroups (s : State) (c used : Nat) : Nat :=
  let lids := ((s.groupsOn c).map (·.lid)).eraseDups
  let n := lids.foldl (fun m lid => max m (hintGroups ((kget? (s.core c).hints lid).getD .automatic) used))
    (if lids.isEmpty then hintGroups .automatic used else 1)
  if lids.any (fun lid => ((s.launch? lid).map (·.prot)).getD false) then max 2 n else n
/-- The order in which lane groups leave service: those with retired lanes first, then the higher-numbered. -/
def CoreState.leaving (k : CoreState) : List Nat :=
  let bad := fun (g : Nat) => k.retiredLanes.toNat / 2 ^ (8 * g) % 2 ^ 8 != 0
  [3, 2, 1, 0].filter bad ++ [3, 2, 1, 0].filter (fun g => !bad g)
/-- The mask of the `n` lane groups that stay live. -/
def CoreState.keepGroups (k : CoreState) (n : Nat) : BitVec 4 := BitVec.ofNat 4 (maskOf (k.leaving.drop (4 - n)))
/-- The live groups that a core chooses: with protected groups there, as many more as P ≥ 1 needs, where that is possible. -/
def State.chooseGroups (s : State) (c used : Nat) : BitVec 4 :=
  let k := s.core c
  let n := s.wantedGroups c used
  let prot := (s.groupsOn c).any (fun g => ((s.launch? g.lid).map (·.prot)).getD false)
  if !prot then k.keepGroups n
  else match [n, n + 1, n + 2].find? (fun m => decide (m ≤ 4) && decide (0 < ({ k with liveGroups := k.keepGroups m } : CoreState).pairs)) with
    | some m => k.keepGroups m
    | none => k.liveGroups
/-- LANE_GROUP_RETENTION: a change is a steering rewrite. -/
def execLaneGroupRetention (core used : Nat) (s : State) : Out :=
  let m := s.chooseGroups core used
  .next (if m = (s.core core).liveGroups then s
    else s.resteer core (fun k => { k with liveGroups := m }))

/-- An empty entry whose contents the move could not correct is lost, now and in every record of the undo log where it is empty
(R143). -/
def Fibre.lose (f : Fibre) (j : Nat) : Fibre := if (f.entry j).full then f else { f with lost := f.lost ++ [j] }
def Warp.lose (w : Warp) (l : Lane) (j : Nat) : Warp :=
  { w with
    slots := nmap (fun k f => if k = l then f.lose j else f) w.slots
    undo := w.undo.map (fun u => { u with before := { u.before with slots := nmap (fun k f => if k = l then f.lose j else f) u.before.slots } }) }
/-- STEERING_ADOPTION: no architectural state changes; `bad` are the entries, by lane, that ECC cannot correct in the move. A
full one ends the group with POISON; an empty one is lost, unless its outstanding producer overwrites it. -/
def execSteeringAdoption (lid : BitVec 32) (w : Nat) (bad : List (Nat × Nat)) (s : State) : Out :=
  let k : WarpKey := ⟨lid, w⟩
  .next (match s.warp? k with
    | none => s
    | some x =>
      if x.oldSteering.isNone || !s.atPoint k x then s
      else
        let full := bad.filter (fun e => ((x.fibre? e.1).map (fun f => (f.entry e.2).full)).getD false)
        let s := s.modWarp k (fun x => { (bad.foldl (fun x e => x.lose e.1 e.2) x) with oldSteering := none })
        if full.isEmpty then s else s.killGroup (s.groupKey k) poisonCause w (sortBy id (full.map (·.1)).eraseDups))

/-! ## Cluster retention (R352 to R354) -/

/-- The groups resident in a cluster, core by core. -/
def State.clusterGroups (s : State) (i : Nat) : List GroupKey := (List.range 32).flatMap (fun c => s.groupsOn (32 * i + c))
/-- Can the warp not issue where it stands? -/
def State.cannotIssue (s : State) (k : WarpKey) (w : Warp) : Bool :=
  !s.canIssue k || (match w.sel with
    | some x => x.blocked || (w.mask != 0 && !s.maskMet k w)
    | none => false)
/-- The save area of a cluster: its base and its size. -/
def Cluster.area (k : Cluster) : Nat × Nat := (k.crHi.toNat % 2 ^ 11 * 2 ^ 32 + k.crLo.toNat / 2 ^ 16 * 2 ^ 16, k.crSz * 65536)
/-- May the cluster enter retention: it is idle, or stage 6 or 7 is engaged; and every warp can be stopped where it stands? -/
def State.mayRetain (s : State) (i : Nat) : Bool :=
  let ws := (s.clusterGroups i).flatMap s.warpsOf
  !(s.cluster i).retained && !(s.cluster i).testing && !s.grid.down &&
  (List.range 32).all (fun c => s.commandsAtStop (32 * i + c)) &&
  ws.all (fun k => match s.warp? k with
    | none => true
    | some w => w.drained && s.atPoint k w && (decide (6 ≤ s.grid.stage) || s.cannotIssue k w))
/-- How many register entries of a warp are empty. -/
def Warp.empties (w : Warp) : Nat := (w.slots.map (fun e => e.2.entries.countP (fun x => !x.2.full))).foldl (· + ·) 0
/-- The warps of a cluster that cannot issue, with their empty entries. -/
def State.sleepers (s : State) (i : Nat) : List (WarpKey × Nat) :=
  ((s.clusterGroups i).flatMap s.warpsOf).filterMap (fun k => (s.warp? k).bind (fun w =>
    if !w.ended && s.cannotIssue k w then some (k, w.empties) else none))
/-- Images laid end to end from an address. -/
def layImages (a : Nat) : List (GroupKey × List Byte) → List (GroupKey × Nat × Nat)
  | [] => []
  | e :: l => (e.1, a, e.2.length) :: layImages (a + e.2.length) l
/-- Entry: commands stop and entries are flushed, the images go to the save area, and L1 is written back and invalidated. -/
def State.retain (s : State) (i : Nat) : State :=
  let gs := s.clusterGroups i
  let t := gs.foldl (fun s g => s.settleGroup g ((s.groupCore g).getD 0)) s
  let imgs := gs.map (fun g => (g, t.image g))
  let (base, size) := (t.cluster i).area
  let saves := layImages base imgs
  let total := (imgs.map (·.2.length)).foldl (· + ·) 0
  if size = 0 ∨ size < total ∨ s.region base ≠ .near (i / 12) ∨ s.region (base + size - 1) ≠ .near (i / 12) then s
  else
    let t := imgs.zip saves |>.foldl (fun t e => t.writeOutside e.2.2.1 e.1.2) t
    let t := (List.range 32).foldl (fun t c => t.modCore (32 * i + c) (fun k => { k with l1 := [] })) t
    let idle := gs.all (fun g => (s.warpsOf g).all (fun k => (s.warp? k).all (fun w => s.cannotIssue k w)))
    t.modCluster i (fun k => { k with retained := true, saves := saves, asleep := s.sleepers i, cause := if idle then 0 else s.grid.stage })
/-- CLUSTER_RETENTION_ENTRY (R352). -/
def execClusterRetentionEntry (cluster : Nat) (s : State) : Out := .next (if s.mayRetain cluster then s.retain cluster else s)

/-- Discard a group's retained state and load it from its image; its commands stay with the core. -/
def State.reloadGroup (s : State) (g : GroupKey) (addr len : Nat) : State :=
  (s.ofImage g (memBytes s.mem addr len)).modGroup g (fun q => { q with cmds := [] })
/-- The first poisoned sector of n bytes from an address. -/
def State.firstPoison (s : State) (a n : Nat) : Option Nat :=
  (s.poison.find? (fun e => decide (a < 32 * e.1 + 32 ∧ 32 * e.1 < a + n))).map (fun e => max a (32 * e.1))
/-- A poisoned sector met in the reload parks the group's first warp with a POISON record (R334); the cluster stays retained and
the reload is made again after the answer. -/
def State.parkReload (s : State) (g : GroupKey) (addr : Nat) : State :=
  match (s.warpsOf g).find? (fun k => ((s.warp? k).map (fun w => !w.ended)).getD false), s.groupCore g with
  | some k, some c =>
    if ((s.warp? k).map (·.parked.isSome)).getD false then s
    else
      let r := s.record (dieOf c) { cause := 0x14, lid := k.lid, warp := k.w, addr := addr, place := placeWord c }
      ((r.1.modWarp k (fun w => { w with parked := some (dieOf c, r.2) })).modGroup g
        (fun q => { q with records := q.records ++ [(dieOf c, r.2)] })).passTurn k
  | _, _ => s
/-- A paused command is to be admitted again. -/
def Command.unpause (x : Command) : Command := { x with stage := if x.stage = .paused then .waiting else x.stage }
def CoreState.unpause (k : CoreState) : CoreState := { k with cmds := nmap (fun _ x => x.unpause) k.cmds }
/-- The cluster is awake: its commands are to be admitted again. -/
def State.awake (s : State) (i : Nat) : State :=
  let s := s.modCluster i (fun k => { k with retained := false, saves := [], asleep := [], cause := 0 })
  (List.range 32).foldl (fun s c => s.modCore (32 * i + c) (·.unpause)) s
/-- May a warp that could not issue when its cluster entered retention issue now? One that waited for an operand may once fewer of its
entries are empty. -/
def State.roused (s : State) (k : WarpKey) (empties : Nat) : Bool :=
  match s.warp? k with
  | none => false
  | some w => s.canIssue k && (match w.sel with
      | some x => (!x.blocked || decide (w.empties < empties)) && (w.mask == 0 || s.maskMet k w)
      | none => true)
/-- Does the cluster wake (R354): an event lets one of its warps issue, the stage that caused entry has been released, or the
distributor wakes it to place a gang that fits nowhere else (R352)? -/
def State.wakes (s : State) (i : Nat) : Bool :=
  let k := s.cluster i
  let t := s.modCluster i (fun k => { k with retained := false })
  k.asleep.any (fun e => t.roused e.1 e.2) || (k.cause != 0 && decide (s.grid.stage < k.cause)) ||
  s.startedLaunches.any (fun l => (s.placeFor l).isNone && (t.placeFor l).isSome)
/-- Wake: with no parity mismatch the retained state goes on; with one, everything is loaded from the images. -/
def State.wake (s : State) (i mismatches : Nat) : State :=
  if !(s.cluster i).retained || s.grid.down || !s.wakes i then s
  else if mismatches = 0 then s.awake i
  else
    let saves := (s.cluster i).saves.filter (fun e => (s.groupCore e.1).isSome)
    match saves.findSome? (fun e => (s.firstPoison e.2.1 e.2.2).map (fun a => (e.1, a))) with
    | some (g, a) => s.parkReload g a
    | none =>
      let s := saves.foldl (fun s e => s.reloadGroup e.1 e.2.1 e.2.2) s
      (s.modCluster i (fun k => { k with crMiss := min (k.crMiss + mismatches) (2 ^ 32 - 1) })).awake i
/-- CLUSTER_WAKE (R354). -/
def execClusterWake (cluster mismatches : Nat) (s : State) : Out := .next (s.wake cluster mismatches)
/-! ## The registers of a cluster (R349, R353) -/

/-- A write to a register of a cluster's block; the save area stays as it is while the cluster is retained. -/
def Cluster.write (k : Cluster) (off : Nat) (v : Word) : Cluster :=
  match off with
  | 0x00 => { k with refill := v.toNat % 2 ^ 20 }
  | 0x04 => { k with peak := v.toNat % 2 ^ 16 }
  | 0x18 => if k.retained then k else { k with crLo := v &&& 0xFFFF0000 }
  | 0x1C => if k.retained then k else { k with crHi := v &&& 0x7FF }
  | 0x20 => if k.retained then k else { k with crSz := v.toNat % 2 ^ 16 }
  | _ => k

end Sys2Proof.Machine
end

