-- ==== Sys2Proof/Machine/Launching.lean ====
section
/-! DEFINITION. The launch front end: records and their validation (R175, R176, R179), queues (R181, R182, R214), the start of
launches (R183), completion (R180), and the counters of R243 and R349. -/

namespace Sys2Proof.Machine

/-! ## The record (R175) -/

/-- The fields of 128 bytes; `reserved` gathers every reserved field and bit. -/
def LaunchRec.parse (b : List Byte) : LaunchRec :=
  let n := fun (o z : Nat) => numAt b o z
  let w := fun (o : Nat) => BitVec.ofNat 32 (n o 4)
  { codebase := BitVec.ofNat 64 (n 0 8), entry := w 8, handler := w 12, flags := w 16, lid := w 20
    gridx := n 24 2, gridy := n 26 2, gridz := n 28 2, warps := n 30 1, gang := n 31 1, regs := n 32 2, accs := n 34 1
    cls := n 35 1, scratch := n 36 4, tiles := n 40 4, mindies := n 44 1, maxdies := n 45 1, lifetime := n 46 2
    seed := BitVec.ofNat 64 (n 48 8), pred := (List.range 4).map (fun i => w (56 + 4 * i))
    fmt := (List.range 8).map (fun i => w (72 + 4 * i)), param := BitVec.ofNat 64 (n 104 8), fibres := n 112 2
    reserved := n 114 6, done := BitVec.ofNat 64 (n 120 8) }

/-- The 128 bytes of a record. -/
def LaunchRec.bytes (r : LaunchRec) : List Byte :=
  bytesOf 8 r.codebase.toNat ++ packN 4 [r.entry.toNat, r.handler.toNat, r.flags.toNat, r.lid.toNat] ++
  packN 2 [r.gridx, r.gridy, r.gridz] ++ packN 1 [r.warps, r.gang] ++ bytesOf 2 r.regs ++ packN 1 [r.accs, r.cls] ++
  packN 4 [r.scratch, r.tiles] ++ packN 1 [r.mindies, r.maxdies] ++ bytesOf 2 r.lifetime ++ bytesOf 8 r.seed.toNat ++
  packN 4 ((List.range 4).map fun i => (r.pred.getD i 0).toNat) ++
  packN 4 ((List.range 8).map fun i => (r.fmt.getD i 0).toNat) ++ bytesOf 8 r.param.toNat ++ bytesOf 2 r.fibres ++
  bytesOf 6 r.reserved ++ bytesOf 8 r.done.toNat

def LaunchRec.flag (r : LaunchRec) (i : Nat) : Bool := r.flags.getLsbD i
def LaunchRec.width (r : LaunchRec) : Nat := if r.flag 1 then 32 else 64
/-- F of R175. -/
def LaunchRec.f (r : LaunchRec) : Nat := if r.fibres = 0 then r.warps * r.width else r.fibres

/-! ## Validation (R179) -/

/-- Dies in service at the service level (R5). -/
def State.diesInService (s : State) : List Nat := if s.level = 2 then [0, 1, 2, 3] else if s.level = 1 then [0] else []
/-- The cores of a die. -/
def coresOf (d : Nat) : List Nat := (List.range coresPerDie).map (fun i => coresPerDie * d + i)

/-- How many equal groups an empty core takes. -/
def CoreState.takes (k : CoreState) (r : LaunchRec) : Nat :=
  let per := fun (have_ need : Nat) => if need = 0 then 32 else have_ / need
  min (min (32 / max 1 r.warps) (per k.entries (r.warps * r.width * r.regs)))
    (min (per (16384 * k.banks 1) r.scratch) (min (per (16384 * k.banks 2) r.tiles) (per 16 r.accs)))
/-- How many gangs of the record a die takes when it is empty. -/
def State.dieTakes (s : State) (r : LaunchRec) (d : Nat) : Nat :=
  ((sitesOf r.gang d).map (fun site => (leastOf (site.map (fun c => (s.core c).takes r))).getD 0)).foldl (· + ·) 0

/-- Can some core of the dies in service give one group its scratch and tile bytes? -/
def State.someCoreGives (s : State) (r : LaunchRec) : Bool :=
  s.diesInService.any (fun d => (coresOf d).any (fun c =>
    decide (r.scratch ≤ 16384 * (s.core c).banks 1 ∧ r.tiles ≤ 16384 * (s.core c).banks 2)))

/-- The refusal code of a record: 0 when it passes every check. -/
def State.validate (s : State) (r : LaunchRec) : Nat :=
  let bad : List (Nat × Bool) :=
    [ (0x01, r.reserved != 0 || r.flags.toNat / 2 ^ 7 != 0 || decide (4 ≤ r.cls)),
      (0x02, r.codebase.toNat % 4 != 0 || r.codebase.toNat / 2 ^ 56 != 0 || r.done.toNat % 8 != 0),
      (0x03, r.regs % 8 != 0 || decide (r.regs < 64) || decide (256 < r.regs)),
      (0x04, r.warps == 0 || decide (16 < r.warps) || decide (r.warps * r.width < r.f) || decide (r.f ≤ (r.warps - 1) * r.width)),
      (0x05, !(r.gang == 1 || r.gang == 4 || r.gang == 32) || r.groups % r.gang != 0),
      (0x06, r.gridx == 0 || r.gridy == 0 || r.gridz == 0),
      (0x07, decide (65536 < r.warps * r.width * r.regs) || decide (8 < r.accs) || !s.someCoreGives r),
      (0x08, r.mindies == 0 || decide (r.maxdies < r.mindies) || decide (4 < r.maxdies)),
      (0x09, (r.flag 5 || r.flag 3) && !r.flag 2),
      (0x0A, r.flag 2 && decide (((List.range r.maxdies).map (s.dieTakes r)).foldl (· + ·) 0 < r.groups / max 1 r.gang)),
      (0x0B, r.lid == 0 || s.isActive r.lid),
      (0x0C, s.predFailed r),
      (0x0D, s.level != 2 && (decide (1 < r.mindies) || r.flag 5 || s.front.dsetLid == r.lid)) ]
  ((bad.find? (·.2)).map (·.1)).getD 0

/-! ## The completion word of a finished launch (R180) -/

/-- Is a reduction of a launch not visible yet: one that rests in a combining buffer, or one of a phase that has ended (R233, R246)? -/
def State.unseen (s : State) (lid : Word) : Bool :=
  s.cores.any (fun c => c.2.comb.any (fun e => e.contributors.any (fun k => k.lid == lid))) ||
  s.heldReds.any (fun r => r.lid == lid && r.due)
/-- The end of a launch flushes its reductions (R233); the word of the first finished launch of which none is left unseen is written.
A flush that poison holds keeps its launch's word back. -/
def State.complete : List Finished → State → State
  | [], s => s
  | f :: rest, s =>
    let s := s.flushLaunch f.lid
    if s.unseen f.lid then State.complete rest s
    else
      ({ s with front := { s.front with finished := s.front.finished.erase f } } : State).writeCompletion f.root f.lid f.done f.state f.code

/-- COMPLETION_WORD_WRITE (R180): the oldest one that can be; none once a drain has been detected (R355). -/
def execCompletionWordWrite (s : State) : Out := .next (if s.grid.down then s else State.complete s.front.finished s)

/-! ## Queues (R181, R182, R214) -/

def LaunchQueue.enabled (q : LaunchQueue) : Bool := q.ctl.getLsbD 5
def LaunchQueue.size (q : LaunchQueue) : Nat := 2 ^ (q.ctl.toNat % 32)
def LaunchQueue.base (q : LaunchQueue) : Nat := q.baseHi.toNat * 2 ^ 32 + q.baseLo.toNat
def LaunchQueue.rootOf (q : LaunchQueue) : Nat := q.rootHi.toNat * 2 ^ 32 + q.rootLo.toNat

def State.queue (s : State) (i : Nat) : LaunchQueue := ngetD s.front.queues {} i
def State.setQueue (s : State) (i : Nat) (q : LaunchQueue) : State :=
  { s with front := { s.front with queues := nsetD s.front.queues {} i q } }

/-- A write to QCTL. -/
def State.writeQctl (s : State) (i : Nat) (v : Word) : State :=
  let q := s.queue i
  let new := v &&& 0x3F
  s.setQueue i <|
    if q.enabled then { q with ctl := (q.ctl &&& 0x1F) ||| (new &&& 0x20) }
    else if !v.getLsbD 5 then { q with ctl := new }
    else
      let n := v.toNat % 32
      if 1 ≤ n ∧ n ≤ 16 ∧ q.base % 128 = 0 ∧ q.base / 2 ^ 43 = 0 ∧ s.backs q.base (128 * 2 ^ n) = true then
        { q with ctl := new, cons := q.prod }
      else { q with ctl := new &&& 0x1F, cfgerr := true }

/-- QCTL_WRITE (R181). -/
def execQctlWrite (queue : Nat) (v : BitVec 32) (s : State) : Out := .next (s.writeQctl queue v)

/-- More records than the ring holds stop the queue (R181). -/
def LaunchQueue.checkOverrun (q : LaunchQueue) : LaunchQueue :=
  if q.enabled && decide (q.size < (q.prod - q.cons).toNat) then { q with overrun := true } else q

/-- A new launch of a record: its conflict count starts at 0 (R243). `others` are the warps of a domain launch on other packages
(R376). -/
def State.accept (s : State) (r : LaunchRec) (root queue others : Nat) : State :=
  let dom := s.front.dsetLid == r.lid && r.flag 5
  ({ s with front := { s.front with detCnt := kdel s.front.detCnt r.lid } } : State).setLaunch r.lid
    { record := r, root := root, queue := queue, stage := .accepted queue, inDevice := queue == 16
      domainPackages := if dom then s.front.dsetN.toNat % 2 ^ 13 else 1
      domainRoot := if dom then s.front.dsetN.toNat / 2 ^ 16 % 2 ^ 13 else s.domid
      domainOthers := if dom then others else 0 }

/-- The front end reads the head record of a queue, if it may (R182, R183, R387). While PROD - CONS still exceeds the ring, an
attempt after the host has cleared OVERRUN sets it again, whether or not QPROD has been written meanwhile (DESIGN CHOICE, log
entry 118). -/
def State.readHead (s : State) (i others : Nat) : State :=
  let q := s.queue i
  if s.level = 0 || s.grid.down || !q.enabled || q.overrun || q.head.isSome || q.prod == q.cons then s
  else if q.checkOverrun.overrun then s.setQueue i q.checkOverrun
  else
    let r := LaunchRec.parse (memBytes s.mem (q.base + 128 * (q.cons.toNat % q.size)) 128)
    let s := s.setQueue i { q with cons := q.cons + 1 }
    match s.validate r with
    | 0 => (s.setQueue i { s.queue i with head := some r.lid }).accept r q.rootOf i others
    | code => s.refuse q.rootOf r code

/-- LAUNCH_RECORD_READ (R182). -/
def execLaunchRecordRead (queue others : Nat) (s : State) : Out := .next (s.readHead queue others)

/-- LAUNCH hands a record to the device queue (R185): the status it returns. -/
def State.append (s : State) (b : List Byte) (root : Nat) : State × Word :=
  if 256 ≤ s.front.device.length then (s, 0xFF)
  else
    let r := LaunchRec.parse b
    match s.validate r with
    | 0 =>
      let s := s.accept r root 16 (Config.otherWarps s.tick r.lid)
      ({ s with front := { s.front with device := s.front.device ++ [r.lid] } }, 0)
    | code => (s.refuse root r code, BitVec.ofNat 32 code)

/-! ## The start of launches (R183) -/

/-- Is every predecessor of a launch finished? -/
def State.predsFinished (s : State) (r : LaunchRec) : Bool := r.pred.all (fun p => p == 0 || p == r.lid || !s.isActive p)
/-- The die set a launch gets now, if there are enough dies. -/
def State.dieSet (s : State) (mindies maxdies : Nat) : Option (List Nat) :=
  let ds := s.diesInService
  if maxdies ≤ ds.length then some (ds.take maxdies) else if mindies ≤ ds.length then some ds else none

/-- The heads of the queues: the queue number and its launch, not started. -/
def State.heads (s : State) : List (Nat × Launch) :=
  let hosts : List (Nat × Word) := s.front.queues.filterMap (fun (q : Nat × LaunchQueue) => q.2.head.map (fun lid => (q.1, lid)))
  let device : List (Nat × Word) := (s.front.device.head?.map (fun lid => (16, lid))).toList
  (hosts ++ device).filterMap fun e =>
      (s.launch? e.2).bind fun l => match l.stage with
        | .accepted _ => some (e.1, l)
        | _ => none

/-- The launch to start: the lowest class first, within a class the queue after the last one chosen. -/
def State.toStart (s : State) : Option (Nat × Launch × List Nat) :=
  let ok := s.heads.filterMap fun e =>
    if s.predsFinished e.2.record && !s.grid.sheds (e.2.record.cls % 4) then
      (s.dieSet e.2.record.mindies e.2.record.maxdies).map (fun ds => (e.1, e.2, ds)) else none
  let rank := fun (e : Nat × Launch × List Nat) =>
    let c := e.2.1.record.cls % 4
    c * 32 + (e.1 + 16 - ngetD s.front.lastQueue 16 c) % 17
  (sortBy rank ok).head?

/-- LAUNCH_START (R183, R241); none once a drain has been detected (R355). -/
def execLaunchStart (s : State) : Out :=
  .next (if s.grid.down then s else match s.toStart with
    | none => s
    | some (q, l, ds) =>
      let c := l.record.cls % 4
      (({ s with front := { s.front with lastQueue := nput s.front.lastQueue c q } } : State).clearTags l.record.lid).setLaunch
        l.record.lid { l with stage := .running, dies := ds, started := s.tick })

/-! ## Counters of a launch (R243, R349) -/

/-- DETLID_WRITE (R243). -/
def execDetlidWrite (v : BitVec 32) (s : State) : Out :=
  .next { s with front := { s.front with detLid := v, detCnt := kdel s.front.detCnt v } }
/-- VIOLLID_WRITE (R349). -/
def execViollidWrite (v : BitVec 32) (s : State) : Out :=
  .next { s with front := { s.front with violLid := v, violCnt := kdel s.front.violCnt v } }
/-- DETCNT_READ (R243). -/
def execDetcntRead (s : State) : Out := .next (s.regClear 0x40C)
/-- VIOLCNT_READ (R349). -/
def execViolcntRead (s : State) : Out := .next (s.regClear 0x42C)
/-- ADMVIOL_READ (R349). -/
def execAdmviolRead (cluster : Nat) (s : State) : Out := .next (s.modCluster cluster (fun c => { c with viol := 0 }))
/-- CRETMISS_READ (R354). -/
def execCretmissRead (cluster : Nat) (s : State) : Out := .next (s.modCluster cluster (fun c => { c with crMiss := 0 }))

end Sys2Proof.Machine
end

