-- ==== Sys2Proof/Machine/Drain.lean ====
section
/-! DEFINITION. Power failure: the drain to flash (R355, R356), the return of power (R357) and the end of the hold time (R358). -/

namespace Sys2Proof.Machine

/-! ## The sections of the drain image (R356) -/

/-- The producer and consumer index of a host queue. -/
def LaunchQueue.indices (q : LaunchQueue) : List Byte := packN 4 [q.prod.toNat, q.cons.toNat]
/-- A remembered outcome: lid, completion word, 4 zero bytes. -/
def outcomeBytes (o : Word × Nat × Nat) : List Byte :=
  bytesOf 4 o.1.toNat ++ bytesOf 8 (o.1.toNat * 2 ^ 32 + o.2.2 % 256 * 2 ^ 8 + o.2.1) ++ bytesOf 4 0
/-- The state word of a launch. -/
def Launch.stateCode (l : Launch) : Nat :=
  match l.stage with
  | .accepted 16 => 3
  | .accepted _ => 1
  | _ => 2
/-- A launch entry of 256 bytes. -/
def Launch.drainEntry (l : Launch) : List Byte :=
  padTo 256 (l.record.bytes ++ packN 4 [l.stepNo.toNat, l.stateCode, maskOf l.dies, l.placed * l.record.gang, l.groupsEnded])
/-- KIND 1: the front end. -/
def State.frontSection (s : State) : List Byte :=
  (List.range 16).flatMap (fun i => (s.queue i).indices) ++ packN 8 [s.front.device.length, 0] ++
  padTo 16384 (s.front.outcomes.flatMap outcomeBytes) ++
  (sortBy (fun l => l.record.lid.toNat) (s.launches.map (·.2))).flatMap (·.drainEntry)

/-- The unit of a barrier instance: die, cluster and quad as far as the scope needs. -/
def State.barUnit (s : State) (b : BarKey) : Nat :=
  match s.launch? b.lid with
  | none => 0
  | some l =>
    let c := (((s.barGroups l b).head?).bind (fun g => (s.group? ⟨b.lid, g⟩).map (fun q => match q.place with
      | .resident c => c
      | _ => q.lastCore))).getD 0
    match b.scope with
    | .quad => dieOf c * 128 + clusterOf c % 12 * 8 + c % 32 / 4
    | .cluster => dieOf c * 128 + clusterOf c % 12 * 8
    | .die => b.inst * 128
    | _ => 0
/-- The 16 bytes of a barrier instance. -/
def State.barBytes (s : State) (b : BarKey) (x : Barrier) : List Byte :=
  bytesOf 4 b.lid.toNat ++ packN 1 [b.scope.code, b.index] ++ bytesOf 2 (s.barUnit b) ++
  packN 4 [x.e % 2 ^ 28, x.count % 2 ^ 28 + fieldBit x.parity 28]
/-- The instances wider than a core that a launch owns on this package (R164): one for each unit that its members occupy. -/
def Launch.instances (l : Launch) (s : State) : List BarKey :=
  let keys := fun (sc : Scope) (n inst : Nat) => (List.range n).map (fun i => (⟨l.record.lid, sc, inst, i⟩ : BarKey))
  (List.range l.gangs).flatMap (fun g => (List.range ((l.record.gang + 3) / 4)).flatMap (fun q => keys .quad 8 (g * 8 + q))) ++
  (List.range l.gangs).flatMap (keys .cluster 8) ++
  (if l.widebar then
    (((List.range l.record.groups).filterMap (s.homeOf l.record.lid)).eraseDups).flatMap (keys .die 8) ++
    keys .package 4 0 ++ keys .domain 4 0 else [])
/-- The instances of every started launch, with those that an operation has touched. -/
def State.allInstances (s : State) : List BarKey :=
  (s.bars.map (·.1) ++ (s.launches.filter (fun l => l.2.stage == .running)).flatMap (fun l => l.2.instances s)).eraseDups
/-- KIND 2: barriers wider than a core. -/
def State.barSection (s : State) : List Byte := s.allInstances.flatMap (fun b => s.barBytes b (s.barrier b))

/-- Cores whose deque has an owner. -/
def State.ownedDeques (s : State) : List (Nat × Word × List DWord) :=
  s.cores.filterMap (fun c => c.2.deque.owner.map (fun o => (c.1, o, c.2.deque.items)))
/-- KIND 3: deques. -/
def State.dequeSection (s : State) : List Byte :=
  s.ownedDeques.flatMap (fun e => packN 4 [placeWord e.1, e.2.1.toNat, e.2.2.length, 0] ++ e.2.2.flatMap (fun x => bytesOf 8 x.toNat))

/-- The groups whose images go to flash: the resident ones, and those that a drain left there. -/
def State.drainGroups (s : State) : List GroupKey :=
  sortBy (fun g => g.lid.toNat * 2 ^ 48 + g.g) ((s.groups.filter (fun e => match e.2.place with
    | .resident _ | .flash _ _ => true
    | _ => false)).map (·.1))
/-- Each group with its image. -/
def State.drainImages (s : State) : List (GroupKey × List Byte) :=
  s.drainGroups.map (fun g => (g, if (s.groupCore g).isSome then pad256 (s.image g) else s.imageBytes g))

def align4k (n : Nat) : Nat := (n + 4095) / 4096 * 4096
/-- Each section's offset from the start of the image. -/
def sectionOffsets (at_ : Nat) : List (List Byte) → List Nat
  | [] => []
  | x :: l => at_ :: sectionOffsets (align4k (at_ + x.length)) l
/-- A section entry of 32 bytes. -/
def sectionEntry (kind off len count : Nat) : List Byte := padTo 32 (packN 8 [kind, off, len] ++ bytesOf 4 count)
/-- The drain header. -/
def State.drainHeader (s : State) (state len : Nat) (sects : List (Nat × Nat × Nat × Nat)) : List Byte :=
  padTo 4096 (padTo 0x80 (packN 4 [0x00010000, state, s.grid.drains % 65536, s.domid, 4, s.tlbi.gen.toNat] ++ bytesOf 8 len) ++
    sects.flatMap (fun e => sectionEntry e.1 e.2.1 e.2.2.1 e.2.2.2))
/-- Bytes laid at their offsets, as the contents of flash. -/
def flashOf (l : List (Nat × List Byte)) : NMap Byte :=
  l.foldl (fun m e => ((List.range e.2.length).zip e.2).foldl (fun m x => nsetD m 0 (e.1 + x.1) x.2) m) []

/-- The whole drain image, and where each group's image lies in it. -/
def State.drainImage (s : State) : NMap Byte × List (GroupKey × Nat × Nat) :=
  let imgs := s.drainImages
  let secs := [s.frontSection, s.barSection, s.dequeSection, imgs.flatMap (·.2)]
  let counts := [s.launches.length, s.allInstances.length, s.ownedDeques.length, imgs.length]
  let offs := sectionOffsets 4096 secs
  let last := offs.getD 3 0 + (secs.getD 3 []).length
  let table := (List.range 4).map (fun i => (i + 1, offs.getD i 0, (secs.getD i []).length, counts.getD i 0))
  (flashOf ((0, s.drainHeader 1 (last - 4096) table) :: offs.zip secs), layImages (offs.getD 3 0) imgs)

/-! ## Drain (R355) -/

/-- Can every resident group be stopped where it stands? -/
def State.mayDrain (s : State) : Bool := (s.groups.filter (fun e => e.2.isResident)).all (fun e => s.mayLeave e.1)

/-- The checkpoint's copies are abandoned (R389). -/
def Checkpoint.abandon (k : Checkpoint) : Checkpoint :=
  if k.busy then { k with busy := false, abandoned := true, pending := [], shards := [] } else k

/-- A group's image lies in flash. -/
def State.toFlash (s : State) (e : GroupKey × Nat × Nat) : State :=
  match s.groupCore e.1 with
  | some c => (s.leaveCore e.1 c (.flash e.2.1 e.2.2)).modLaunch e.1.lid (fun l => { l with whole := l.cores || l.whole })
  | none => s.modGroup e.1 (fun q => { q with place := .flash e.2.1 e.2.2 })
/-- What the loss of power takes from caches and buffers: copies and translations. -/
def State.dropCopies (s : State) : State :=
  { s with
    cores := s.cores.map (fun c => (c.1, { c.2 with l1 := [], code := [] }))
    dies := s.dies.map (fun d => (d.1, { d.2 with tlb := [] }))
    clusters := s.clusters.map (fun c => (c.1, { c.2 with retained := false, saves := [], asleep := [], cause := 0 })) }

/-- The drain has been detected: a checkpoint in progress is abandoned, whether or not the drain is then cut short (R389). -/
def State.detected (s : State) : State := { s with ck := s.ck.abandon }
/-- What the sections hold is lost with the power, until it is read back: queue indices, outcomes, barriers and deques. -/
def State.dropSections (s : State) : State :=
  { s with
    front := { s.front with outcomes := [], queues := s.front.queues.map (fun q => (q.1, { q.2 with prod := 0, cons := 0 })) }
    bars := s.bars.map (fun b => (b.1, { b.2 with e := 0, count := 0, parity := false }))
    cores := s.cores.map (fun c => (c.1, { c.2 with deque := {} })) }

/-- The drain: commands stop, gates and combining buffers are empty, and everything goes to flash, the header last. -/
def State.drain (s : State) : State :=
  let s := (s.groups.filter (fun e => e.2.isResident)).foldl (fun s e => s.settleGroup e.1 ((s.groupCore e.1).getD 0)) s
  let s := s.modGrid (fun g => { g with drains := g.drains + 1, valid := true, stale := false, draining := false, drained := true })
  let r := s.drainImage
  let s := (r.2.foldl (fun (s : State) e => s.toFlash e) { s with flash := r.1 }).dropCopies.dropSections
  s.send (.vector 10)

/-- A cluster in retention wakes for the drain. -/
def State.wakeAll (s : State) : State := (List.range 48).foldl (fun s i => if (s.cluster i).retained then s.awake i else s) s

/-- The device rewrites STATE of the header (R356). -/
def flashState (m : NMap Byte) (state : Nat) : NMap Byte := nsetD m 0 4 (BitVec.ofNat 8 state)
/-- DRAIN (R355): at detection every warp is to stop at its next pre-emption point; once all have, the drain runs. Until its header
is written STATE is 0, so that a drain cut short leaves no image to resume (R356). A package without a module has no stored charge
and no drain flash (R1). -/
def execDrain (s : State) : Out :=
  .next (if s.grid.drained || !s.onModule then s
    else
      let s := { (s.modGrid (fun g => { g with draining := true })).wakeAll.detected with flash := flashState s.flash 0 }
      if s.mayDrain then s.drain else s)

/-! ## Resumption (R356, R357) -/

/-- A number of n bytes in drain flash. -/
def State.flashNum (s : State) (o n : Nat) : Nat := ofBytes ((List.range n).map (fun i => ngetD s.flash 0 (o + i)))
/-- Where a section begins, and its entry count. -/
def State.sectionAt (s : State) (kind : Nat) : Nat × Nat :=
  let o := 0x80 + 32 * (kind - 1)
  (s.flashNum (o + 8) 8, s.flashNum (o + 24) 4)
/-- Queues, outcomes and records from section 1; what its layout has no place for the front end has kept. -/
def State.rebuildFront (s : State) : State :=
  let (o, n) := s.sectionAt 1
  let t := (List.range 16).foldl (fun t i => t.setQueue i { t.queue i with
    prod := BitVec.ofNat 32 (s.flashNum (o + 8 * i) 4), cons := BitVec.ofNat 32 (s.flashNum (o + 8 * i + 4) 4) }) s
  let outcome := fun (i : Nat) =>
    let a := o + 144 + 16 * i
    (BitVec.ofNat 32 (s.flashNum a 4), s.flashNum (a + 4) 1, s.flashNum (a + 5) 1)
  let t := { t with front := { t.front with outcomes := ((List.range 1024).map outcome).filter (fun e => e.2.1 != 0) } }
  (List.range n).foldl (fun t i =>
    let a := o + 16528 + 256 * i
    let r := LaunchRec.parse ((List.range 128).map (fun j => ngetD s.flash 0 (a + j)))
    t.modLaunch r.lid (fun l => { l with
      record := r, stepNo := BitVec.ofNat 32 (s.flashNum (a + 128) 4), dies := bitsOf 4 (s.flashNum (a + 136) 4)
      placed := s.flashNum (a + 140) 4 / r.gang, groupsEnded := s.flashNum (a + 144) 4 })) t
/-- The barrier instances from section 2. -/
def State.rebuildBars (s : State) : State :=
  let (o, n) := s.sectionAt 2
  (List.range n).foldl (fun t i =>
    let a := o + 16 * i
    match s.allInstances.find? (fun b => s.flashNum a 8 == ofBytes ((s.barBytes b (s.barrier b)).take 8)) with
    | none => t
    | some b =>
      let x := s.flashNum (a + 12) 4
      t.setBarrier b { s.barrier b with e := s.flashNum (a + 8) 4 % 2 ^ 28, count := x % 2 ^ 28, parity := x.testBit 28 }) s
/-- The deques from section 3, one after another. -/
def State.rebuildDeques : (n : Nat) → (o : Nat) → State → State
  | 0, _, s => s
  | n + 1, o, s =>
    let p := s.flashNum o 4
    let k := s.flashNum (o + 8) 4
    let items := (List.range k).map (fun i => BitVec.ofNat 64 (s.flashNum (o + 16 + 8 * i) 8))
    State.rebuildDeques n (o + 16 + 8 * k) (s.modCore (384 * (p / 2 ^ 30) + 32 * (p / 2 ^ 24 % 16) + p % 32)
      (fun c => { c with deque := { owner := some (BitVec.ofNat 32 (s.flashNum (o + 4) 4)), items := items } }))
/-- Before any group is placed, the front end rebuilds what the sections hold (R356). -/
def State.rebuild (s : State) : State :=
  let s := s.rebuildFront.rebuildBars
  State.rebuildDeques (s.sectionAt 3).2 (s.sectionAt 3).1 s

/-! ## Power (R357, R358) -/

/-- What is lost with the memory's contents: memory, every group and every launch that was accepted. -/
def State.loseMemory (s : State) : State :=
  { s with
    mem := [], poison := [], lines := [], tags := [], heldReds := [], launches := [], groups := [], warps := [], bars := [], agenda := []
    cores := s.cores.map (fun c => (c.1, { c.2 with
      deque := {}, cmds := [], locks := [], comb := [], hints := [], turn := [], horizon := [] }))
    front := { s.front with queues := s.front.queues.map (fun e => (e.1, { e.2 with head := none })), device := [], finished := [] }
    router := { s.router with pit := [], store := [] } }

/-- POWER_RETURN: within the hold time the drained groups are placed again, by GANG_PLACEMENT, after the front end has rebuilt its
state; after it none is. The cores' clocks run on through it: the spec does not say that a core leaves reset anew (R95: DESIGN CHOICE,
log entry 154). -/
def execPowerReturn (s : State) : Out :=
  .next (if !s.grid.drained then s
    else
      let s := s.modGrid (fun g => { g with drained := false })
      if s.grid.valid then s.rebuild.drainPlaced else s)

/-- HOLD_EXPIRY: the drain image is stale, and memory contents are lost. When the stored charge ends before the drain is complete,
the drain is cut short: memory is lost and STATE stays 0 (DEDUCED, log entry 136), and vector 10 is raised where VALID changes
(R386). -/
def execHoldExpiry (s : State) : Out :=
  .next (if s.grid.draining then
      let t := s.loseMemory.modGrid (fun g => { g with valid := false, draining := false, drained := true })
      if s.grid.valid then t.send (.vector 10) else t
    else if !s.grid.drained || s.grid.stale || !s.grid.valid then s
    else ({ (s.loseMemory.modGrid (fun g => { g with valid := false, stale := true })) with flash := flashState s.flash 2 } : State).send
      (.vector 10))

end Sys2Proof.Machine
end

