-- ==== Sys2Proof/Machine/Sched.lean ====
section
/-! DEFINITION. Scheduling instructions: the deque, REG.GROW, REG.SHRINK and STEP (R185 to R195). -/

namespace Sys2Proof.Machine

/-! ## The deque (R186 to R188) -/

/-- Is the deque usable by a launch? -/
def Deque.ownedBy (q : Deque) (lid : Word) : Bool := q.owner == some lid
/-- DEQ.PUSH on a deque: whether the item was taken. -/
def Deque.push (q : Deque) (lid : Word) (x : DWord) : Deque × Bool :=
  if 256 ≤ q.items.length ∨ (q.owner ≠ none ∧ q.owner ≠ some lid) then (q, false)
  else ({ owner := some lid, items := q.items ++ [x] }, true)
/-- The deque after an item left: an empty deque has no owner. -/
def Deque.rest (q : Deque) (l : List DWord) : Deque := { owner := if l.isEmpty then none else q.owner, items := l }
/-- DEQ.POP on a deque: the bottom item. -/
def Deque.pop (q : Deque) (lid : Word) : Deque × Option DWord :=
  if q.ownedBy lid then (match q.items.getLast? with
    | some x => (q.rest q.items.dropLast, some x)
    | none => (q, none))
  else (q, none)
/-- The top item taken by a thief. -/
def Deque.steal (q : Deque) (lid : Word) : Deque × Option DWord :=
  if q.ownedBy lid then (match q.items with
    | x :: l => (q.rest l, some x)
    | [] => (q, none))
  else (q, none)

/-- The cores that a thief looks at, in order (R188). -/
def stealOrder (c : Nat) : List Nat :=
  ((List.range 3).map (fun i => c / 4 * 4 + (c % 4 + i + 1) % 4)) ++
  (((List.range 31).map (fun i => c / 32 * 32 + (c % 32 + i + 1) % 32)).filter (fun d => d / 4 != c / 4))

/-- DEQ.PUSH of one lane: the state and the words it writes. -/
def State.pushLane (s : State) (c : Nat) (lid : Word) (v : DWord) : State × List Word :=
  let r := (s.core c).deque.push lid v
  (s.modCore c (fun k => { k with deque := r.1 }), [if r.2 then 1 else 0])
/-- The three words of a POP or STEAL: the item and the status. -/
def takenWords (x : Option DWord) : List Word :=
  match x with
  | some x => [lo32 x, hi32 x, 1]
  | none => [0, 0, 0]
def State.popLane (s : State) (c : Nat) (lid : Word) : State × List Word :=
  let r := (s.core c).deque.pop lid
  (s.modCore c (fun k => { k with deque := r.1 }), takenWords r.2)
def State.stealLane (s : State) (c : Nat) (lid : Word) : State × List Word :=
  match (stealOrder c).find? (fun d => (s.core d).deque.ownedBy lid && !(s.core d).deque.items.isEmpty) with
  | none => (s, takenWords none)
  | some d =>
    let r := (s.core d).deque.steal lid
    (s.modCore d (fun k => { k with deque := r.1 }), takenWords r.2)
/-- One lane of a deque instruction. -/
def State.dequeLane (s : State) (c : Nat) (lid : Word) (a : DequeAct) (v : DWord) : State × List Word :=
  match a with
  | .push => s.pushLane c lid v
  | .pop => s.popLane c lid
  | .steal => s.stealLane c lid

/-- The issue of a deque instruction (R187): its destinations become empty, and its operations wait in the gate (R329), from where
the results come back as a long-latency producer's. -/
def deque (s : State) (g : Guard) (uses : Uses) (dst : Fibre → List Nat) (a : DequeAct) (operand : Fibre → DWord) : Out :=
  .next (s.runIssue (some g) false false uses (fun x s =>
    if x.active.isEmpty then .next s
    else if x.w.spec.isSome then .wait s []
    else s.compared x (fun s =>
      .next ((s.modWarp x.key (fun w => w.mapLanes x.active (fun _ f => f.emptyEntries (dst f)))).holdEffect x
        (.deque a (x.fibres.map (fun e => (e.1, operand e.2, dst e.2))))))))

/-- DEQ.PUSH. -/
def execDeqPush (g : Guard) (vs a : Reg) (fa : Bool) (s : State) : Out :=
  deque s g { src := [vop a fa 2], dst := [vop vs] } (fun f => f.entriesFrom vs 1) .push (·.val64 a)
/-- The destinations of POP and STEAL: the pair and the status. -/
def dequeDst (d vs : Reg) (f : Fibre) : List Nat := f.entriesFrom d 2 ++ f.entriesFrom vs 1
/-- DEQ.POP. -/
def execDeqPop (g : Guard) (d vs : Reg) (s : State) : Out :=
  deque s g { dst := [vop d false 2, vop vs] } (dequeDst d vs) .pop (fun _ => 0)
/-- DEQ.STEAL: DET_UNSUPPORTED under deterministic mode (R195). -/
def execDeqSteal (g : Guard) (d vs : Reg) (s : State) : Out :=
  match s.issue with
  | none => .next s
  | some iss =>
    if s.isDet iss.key then
      .next (s.runIssue (some g) false false { dst := [vop d false 2, vop vs] } (fun x s => x.allTrap s { cause := detUnsupported }))
    else deque s g { dst := [vop d false 2, vop vs] } (dequeDst d vs) .steal (fun _ => 0)

/-! ## Register allocation (R189, R190) -/

/-- The register entries that a group's warps hold or wait for, without one of them: the check of R189 ensures that the group fits
on an empty core with every request granted (R191). -/
def State.otherEntries (s : State) (k : WarpKey) : Nat :=
  (((s.warpsOf (s.groupKey k)).filter (fun j => j != k)).map
    (fun j => ((s.warp? j).map (fun w => s.widthOf k * w.wants)).getD 0)).foldl (· + ·) 0

/-- REG.GROW: the warp waits until REG_GROW_GRANT gives it the entries. -/
def execRegGrow (g : Guard) (n : BitVec 8) (s : State) : Out :=
  .next (s.runIssue (some g) false false {} (fun x s =>
    let a := 8 * n.toNat
    if x.active.isEmpty || a ≤ x.w.alloc then .next s
    else if x.w.waiting ≠ .none then (if x.w.released then .next s else .wait s [])
    else if 65536 < s.otherEntries x.key + s.widthOf x.key * a then x.allTrap s { cause := windowOverflow, info0 := BitVec.ofNat 32 a }
    else .wait ((s.modWarp x.key (fun w => { w with waiting := .grow a, released := false })).passTurn x.key) []))

/-- Has a fibre an empty entry at or above n? -/
def Fibre.emptyFrom (f : Fibre) (n : Nat) : Bool := f.entries.any (fun e => decide (n ≤ e.1) && !e.2.full)
/-- The entries below n. -/
def Fibre.cutTo (f : Fibre) (n : Nat) : Fibre := { f with entries := f.entries.filter (fun e => decide (e.1 < n)) }

/-- REG.SHRINK. -/
def execRegShrink (g : Guard) (n : BitVec 8) (s : State) : Out :=
  .next (s.runIssue (some g) false false {} (fun x s =>
    let a := 8 * n.toNat
    let top := x.w.slots.foldl (fun m e => max m (e.2.wb + 64)) 0
    if x.active.isEmpty || x.w.alloc ≤ a then .next s
    else if a < top then x.allTrap s { cause := windowOverflow, info0 := BitVec.ofNat 32 top }
    else if x.w.slots.any (fun e => e.2.emptyFrom a) then .wait s []
    else .next (s.modWarp x.key (fun w => { w with alloc := a, slots := nmap (fun _ f => f.cutTo a) w.slots }))))

/-! ## STEP (R192) -/

/-- STEP: the warp releases, is counted once its earlier accesses are performed, and waits for STEP_BOUNDARY. -/
def execStep (g : Guard) (d sb : Reg) (fb : Bool) (s : State) : Out :=
  .next (s.runIssue (some g) false false { src := [sop sb fb], dst := [vop d] } (fun x s =>
    if x.active.isEmpty then .next s
    else if x.w.spec.isSome then .wait s []
    else match s.launch? x.key.lid with
      | none => .next s
      | some l =>
        if x.w.waiting ≠ .none then
          (if x.w.released then x.eachLane s (fun _ f => f.setV d (BitVec.ofNat 32 l.dies.length)) else .wait s [])
        else
          let v := x.w.sval sb
          if !l.cores || v != l.stepNo + 1 then
            x.allTrap s { cause := barrierMembership, info0 := v, info1 := l.stepNo }
          else
            .wait ((((s.modWarp x.key (fun w => { w with waiting := .step, released := false })).reachedPoint x.key).modLaunch x.key.lid
              (fun l => { l with stepNext := v })).passTurn x.key) []))

end Sys2Proof.Machine
end

