-- ==== Sys2Proof/Machine/Order.lean ====
section
/-! DEFINITION. Events of the memory system: walks and invalidations (R216, R220, R221), recalls (R229, R239, R240), the completion of ICINV (R263), and horizons (R245). -/

namespace Sys2Proof.Machine

/-! ## Walks (R216) -/

/-- The translation of a page under a root, for whichever kind its leaf allows. -/
def State.pageEntry (s : State) (root va : Nat) : Option LastPage :=
  [Kind.read, .write, .fetch].findSome? (fun k => match s.walk root va k with
    | .ok _ p => some p
    | _ => none)
/-- The TLB holds a page under a root. -/
def DieState.holdPage (x : DieState) (root : Nat) (p : LastPage) : DieState :=
  { x with tlb := ⟨root, p.vpage, p.ppage, p.r, p.w, p.x⟩ :: x.tlb.filter (fun e => !(e.root == root && e.vpage == p.vpage)) }
/-- A walk completes: the die's TLB holds the page; a fault is raised by the access that meets it. -/
def State.walked (s : State) (d root va : Nat) : State :=
  match s.pageEntry root va with
  | some p => s.modDie d (·.holdPage root p)
  | none => s
/-- PAGE_WALK, for a launch that runs. -/
def execPageWalk (die root va : Nat) (s : State) : Out :=
  .next (if s.launches.any (fun l => l.2.root == root) then s.walked die root va else s)

/-! ## Invalidations (R220, R221) -/

/-- A write to TLBI_CTL. A write while BUSY is 1 is ignored. -/
def State.writeTlbiCtl (s : State) (v : Word) : State :=
  let t := s.tlbi
  if t.busy then s
  else
    let q := s.queue (v.toNat % 16)
    let scope := v.toNat / 2 ^ 7 % 8
    let t := { t with die := v.toNat / 2 ^ 10 % 4, scope := scope, allRoots := v.getLsbD 4, root := v.toNat % 16,
                      err := t.err && !v.getLsbD 30 }
    { s with tlbi :=
      if !v.getLsbD 12 then t
      else if scope = 4 ∨ scope = 5 then { t with busy := true, rootValue := q.rootOf }
      else { t with err := true } }
/-- TLBI_GO. -/
def execTlbiGo (v : BitVec 32) (s : State) : Out := .next (s.writeTlbiCtl v)
/-- A write to another register of the block. -/
def TlbiBlock.write (t : TlbiBlock) (off : Nat) (v : Word) : TlbiBlock :=
  if t.busy then t
  else match off with
    | 0x00 => { t with vaLo := v &&& 0xFFFF0000 }
    | 0x04 => { t with vaHi := v &&& 0xFFFFFF }
    | 0x08 => { t with npg := v.toNat % 2 ^ 20 }
    | _ => t

/-- Does the invalidation in progress cover a page, a root and a die? -/
def TlbiBlock.coversPage (t : TlbiBlock) (vpage : Nat) : Bool :=
  let first := (t.vaHi.toNat * 2 ^ 32 + t.vaLo.toNat) / 2 ^ 16
  t.npg == 0 || decide (first ≤ vpage ∧ vpage < first + t.npg)
def TlbiBlock.coversRoot (t : TlbiBlock) (root : Nat) : Bool := t.allRoots || t.rootValue == root
def TlbiBlock.coversDie (t : TlbiBlock) (d : Nat) : Bool := t.scope == 5 || t.die == d
/-- Does it cover a warp: by the root of its launch and the die it stands on? A group that is out may come back anywhere. -/
def State.tlbiCovers (s : State) (k : WarpKey) : Bool :=
  ((s.launch? k.lid).map (fun l => s.tlbi.coversRoot l.root)).getD false &&
  (match s.coreOf k with
  | some c => s.tlbi.coversDie (dieOf c)
  | none => true)

/-- The virtual pages that an outstanding item used. -/
def Pend.pages (p : Pend) : List Nat :=
  (match p.kind with
  | .load (.mem _) .. | .store (.mem _) _ | .red (.mem _) .. | .launch (.mem _) _ => [p.va / 2 ^ 16]
  | .atom us _ _ => if us.any (fun u => match u.loc with
      | .mem _ => true
      | _ => false) then p.va / 2 ^ 16 :: p.ops.flatMap (fun o => [o.2.1 / 2 ^ 16, (o.2.1 + 2) / 2 ^ 16]) else []
  | _ => [])
/-- Has a warp an access outstanding of a covered page, or, on a core, a fibre inside a clause of one? -/
def State.tlbiBlocked (s : State) (k : WarpKey) (w : Warp) : Bool :=
  w.pend.any (fun p => p.pages.any s.tlbi.coversPage) ||
  (match s.coreOf k, s.launch? k.lid with
  | some _, some l => w.slots.any (fun e => e.2.inside && !e.2.refetch &&
      ((List.range (e.2.body.length + 1)).any (fun i => s.tlbi.coversPage (codeAddr l (e.2.hdr + BitVec.ofNat 32 i) / 2 ^ 16))))
  | _, _ => false)
/-- Does it cover the root of a launch, running or finished? -/
def State.tlbiRoot (s : State) (lid : Word) : Bool :=
  ((s.launch? lid).map (fun l => s.tlbi.coversRoot l.root)).getD false ||
  s.front.finished.any (fun f => f.lid == lid && s.tlbi.coversRoot f.root)
/-- Was a resting reduction made through a covered translation? -/
def State.tlbiEntry (s : State) (c : Nat) (e : CombEntry) : Bool :=
  s.tlbi.coversDie (dieOf c) && (s.tlbi.coversPage (e.va / 2 ^ 16)) &&
  e.contributors.any (fun k => s.tlbiRoot k.lid)
/-- The same for a held reduction of a deterministic launch. -/
def State.tlbiHeld (s : State) (r : HeldRed) : Bool :=
  s.tlbi.coversDie r.die && s.tlbi.coversPage (r.va / 2 ^ 16) && s.tlbiRoot r.lid
/-- Did an outstanding request of an engine, or of the hub, use a covered translation? The hub stands on no die of the cores, so that
an invalidation of any die covers it (DESIGN CHOICE, log entry 161). -/
def State.tlbiRequest (s : State) (c : Nat) (o : PeerOut) : Bool :=
  o.page.any (fun p => s.tlbi.coversRoot p.1 && s.tlbi.coversPage p.2 && (c == hubCore || s.tlbi.coversDie (dieOf c)))
/-- Is an access that used a translation of the range still incomplete: outstanding, resting in a buffer, or held at its slice
(R220)? -/
def State.tlbiWaits (s : State) : Bool :=
  s.warps.any (fun e => s.tlbiCovers e.1 && s.tlbiBlocked e.1 e.2) ||
  s.cores.any (fun c => c.2.comb.any (s.tlbiEntry c.1)) || s.heldReds.any s.tlbiHeld ||
  s.flows.any (fun f => f.2.open_.any (s.tlbiRequest f.1.1))
/-- The resting reductions of the range are flushed, so that they complete. -/
def State.tlbiFlush (s : State) : State := s.cores.foldl (fun t c => t.flushWhere c.1 (s.tlbiEntry c.1)) s

/-- What the completion clears in a covered fibre, now and at every boundary to which a rollback may return: its last-page
register. -/
def Fibre.invalidate (t : TlbiBlock) (f : Fibre) : Fibre :=
  { f with lastPage := f.lastPage.filter (fun p => !t.coversPage p.vpage) }
/-- What the completion clears in a covered warp: last-page registers and the clause it fetched ahead. -/
def Warp.invalidate (w : Warp) (l : Launch) (t : TlbiBlock) : Warp :=
  { w with
    slots := nmap (fun _ f => f.invalidate t) w.slots
    undo := w.undo.map (fun u => { u with before := { u.before with slots := nmap (fun _ f => f.invalidate t) u.before.slots } })
    loop := w.loop.filter (fun c => !(List.range (c.2.length)).any (fun i => t.coversPage (codeAddr l (c.1 + BitVec.ofNat 32 i) / 2 ^ 16))) }
/-- What it clears in a covered die and in a covered core. -/
def DieState.invalidate (d : DieState) (t : TlbiBlock) : DieState :=
  { d with tlb := d.tlb.filter (fun e => !(t.coversRoot e.root && t.coversPage e.vpage)) }
def CoreState.invalidate (c : CoreState) (t : TlbiBlock) : CoreState :=
  { c with code := c.code.filter (fun x => !(t.coversRoot x.root && t.coversPage (x.va / 2 ^ 16))) }
/-- An invalidation completes: no access that used a translation of the range is incomplete, none is left in its scope, BUSY clears
and GEN rises. -/
def State.tlbiComplete (s : State) : State :=
  let t := s.tlbi
  let s := if t.busy then s.tlbiFlush else s
  if !t.busy || s.tlbiWaits then s
  else
    { s with
      dies := s.dies.map (fun d => (d.1, if t.coversDie d.1 then d.2.invalidate t else d.2))
      cores := s.cores.map (fun c => (c.1, if t.coversDie (dieOf c.1) then c.2.invalidate t else c.2))
      warps := s.warps.map (fun e => (e.1, if s.tlbiCovers e.1 then (match s.launch? e.1.lid with
        | some l => e.2.invalidate l t
        | none => e.2) else e.2))
      tlbi := { t with busy := false, gen := t.gen + 1 } }
/-- TLBI_COMPLETE (R220, R221). -/
def execTlbiComplete (s : State) : Out := .next s.tlbiComplete

/-! ## Recalls (R229, R239, R240) -/

/-- LEASE_RECALL: the core drops its copy of the line. -/
def execLeaseRecall (line core : Nat) (s : State) : Out := .next (s.modCore core (fun k => { k with l1 := ndel k.l1 line }))
/-- SPECULATIVE_ROLLBACK: a recall of one of its marks reaches a speculative warp. -/
def execSpeculativeRollback (lid : BitVec 32) (w line : Nat) (s : State) : Out :=
  .next (match (s.warp? ⟨lid, w⟩).bind (·.spec) with
    | some f => if f.marks.contains line then s.modWarp ⟨lid, w⟩ (·.specRollback) else s
    | none => s)

/-! ## ICINV (R262, R263) -/

/-- Is core `d` in the scope of core `c`? -/
def inScope (scope : Scope) (c d : Nat) : Bool :=
  match scope with
  | .warp | .core => c == d
  | .quad => c / 4 == d / 4
  | .cluster => clusterOf c == clusterOf d
  | .die => dieOf c == dieOf d
  | .package | .domain => true
/-- Drop a core's copies, and a warp's loop buffer, of pages. -/
def CoreState.dropCode (k : CoreState) (root : Nat) (pages : List Nat) : CoreState :=
  { k with code := k.code.filter (fun x => !(x.root == root && pages.contains (x.va / 2 ^ 16))) }
def Warp.dropLoop (w : Warp) (l : Launch) (pages : List Nat) : Warp :=
  { w with loop := w.loop.filter (fun q => !(List.range q.2.length).any (fun i =>
    pages.contains (codeAddr l (q.1 + BitVec.ofNat 32 i) / 2 ^ 16))) }
/-- Every core of the scope drops its copies of the pages under a root. -/
def State.dropCode (s : State) (c root : Nat) (scope : Scope) (pages : List Nat) : State :=
  { s with
    cores := s.cores.map (fun e => (e.1, if inScope scope c e.1 then e.2.dropCode root pages else e.2))
    warps := s.warps.map (fun e => (e.1, match s.launch? e.1.lid, s.coreOf e.1 with
      | some l, some d => if l.root = root ∧ inScope scope c d = true then e.2.dropLoop l pages else e.2
      | _, _ => e.2)) }
/-- ICINV_COMPLETE: once the warp's earlier stores are performed and every core of the scope has dropped its copies. -/
def execIcinvComplete (lid : BitVec 32) (w : Nat) (s : State) : Out :=
  let k : WarpKey := ⟨lid, w⟩
  .next (match s.warp? k, s.launch? lid, s.coreOf k with
    | some x, some l, some c => (match x.waiting with
      | .icinv scope pages =>
        if x.released || x.unperformed || s.warpRests k then s
        else (s.dropCode c l.root scope pages).modWarp k (fun x => { x with released := true })
      | _ => s)
    | _, _, _ => s)

/-! ## Horizons (R245) -/

/-- Has a member arrived in the phase of an instance, or dropped out of it? -/
def State.arrivedAt (s : State) (o : BarOp) (b : BarKey) (k : WarpKey) : Bool :=
  match s.warp? k with
  | some w => w.droppedBit o || (w.arrivedBit o && w.aparBit o == (s.barrier b).parity)
  | none => false
/-- What a warp contributes to its launch's horizon: nothing once it has ended, 0 before its group is placed. `seen` is the
chain of barrier waits that led here. -/
def State.contribution (s : State) : (fuel : Nat) → (seen : List WarpKey) → WarpKey → Option Nat
  | 0, _, k => (s.warp? k).map (·.ownOrder)
  | n + 1, seen, k =>
    match s.launch? k.lid, s.warp? k with
    | some l, none => if groupIndex l k.w < l.placed * l.record.gang then none else some 0
    | _, none => none
    | _, some w =>
      if w.ended then none
      else match w.waiting with
        | .barrier o => (match s.barKey? k o with
          | some b =>
            if !s.stillWaits k w || seen.contains k then some w.ownOrder
            else
              let others := (s.members b).filter (fun m => !s.arrivedAt o b m)
              some (max w.ownOrder ((leastOf (others.filterMap (s.contribution n (k :: seen)))).getD 0))
          | none => some w.ownOrder)
        | _ => some w.ownOrder
/-- The warps of a launch. -/
def Launch.allWarps (l : Launch) : List WarpKey := (List.range l.record.totalWarps).map (fun w => ⟨l.record.lid, w⟩)
/-- The horizon that some of a launch's warps give: the least ρ and lane of the least contribution. -/
def State.horizonOf (s : State) (l : Launch) (ks : List WarpKey) : Option (Nat × Nat × Nat) :=
  (leastOf (ks.filterMap (s.contribution (l.record.totalWarps + 1) []))).map (fun n => (n, 0, 0))
/-- A horizon that is published anew: it never decreases. -/
def risen (old new : Option (Nat × Nat × Nat)) : Option (Nat × Nat × Nat) :=
  match old, new with
  | some a, some b => some (if keyLess b a then a else b)
  | _, n => n
def CoreState.putHorizon (q : CoreState) (lid : Word) (h : Option (Nat × Nat × Nat)) : CoreState :=
  { q with horizon := kset q.horizon lid (risen (kget? q.horizon lid) h) }
/-- Every core publishes its horizon of a launch, and the front end that of the groups that stand on no core. -/
def State.publish (s : State) (l : Launch) : State :=
  let ks := l.allWarps
  let cores := (ks.filterMap s.coreOf).eraseDups
  let out := s.horizonOf l (ks.filter (fun k => (s.coreOf k).isNone))
  let s' := cores.foldl (fun (t : State) c => t.modCore c (·.putHorizon l.record.lid
    (s.horizonOf l (ks.filter (fun k => s.coreOf k == some c))))) s
  { s' with front := { s'.front with horizon := kset s'.front.horizon l.record.lid (risen (kget? s'.front.horizon l.record.lid) out) } }
/-- HORIZON_PUBLISH. -/
def execHorizonPublish (s : State) : Out :=
  .next ((s.launches.filter (fun l => l.2.det && l.2.stage == .running)).foldl (fun s l => s.publish l.2) s)

/-- Has every horizon of the launch passed a key? -/
def State.allPassed (s : State) (l : Launch) (key : Nat × Nat × Nat) : Bool :=
  let cores := (l.allWarps.filterMap s.coreOf).eraseDups
  decide (l.gangs ≤ l.placed) &&
  cores.all (fun c => match kget? (s.core c).horizon l.record.lid with
    | some h => keyLess key h
    | none => (s.horizonOf l (l.allWarps.filter (fun k => s.coreOf k == some c))).isNone) &&
  (match s.horizonOf l (l.allWarps.filter (fun k => (s.coreOf k).isNone)) with
  | none => true
  | some _ => ((kget? s.front.horizon l.record.lid).map (keyLess key)).getD false)

end Sys2Proof.Machine
end

