-- ==== Sys2Proof/Machine/Checkpoint.lean ====
section
/-! DEFINITION. Step boundaries (R192), elastic steps (R173, R193), checkpoints (R388 to R390) and restores (R391, R392). -/

namespace Sys2Proof.Machine

/-! ## Shards (R390) -/

def align64k (n : Nat) : Nat := (n + 65535) / 65536 * 65536
/-- The first 64 bytes of a shard header. -/
def shardHead (kind : Nat) (job : Nat) (step index count domid len addr : Nat) : List Byte :=
  padTo 0x40 (packN 4 [0x00010000, kind] ++ bytesOf 8 job ++ packN 4 [step, index, count, domid] ++ packN 8 [len, addr])
/-- A shard: header with its digest, payload, padding. -/
def shardOf (head payload : List Byte) : List Byte :=
  let b := head ++ sha512 (head ++ payload) ++ payload
  padTo (align64k b.length) b

/-- A shard that was read. -/
structure Shard where
  kind : Nat
  job : Nat
  step : Nat
  index : Nat
  count : Nat
  addr : Nat
  payload : List Byte
  deriving DecidableEq, Repr
/-- A shard from its bytes, when its header is of this layout and its digest is good. -/
def Shard.parse (b : List Byte) : Option Shard :=
  let len := numAt b 0x20 8
  let payload := (b.drop 128).take len
  if numAt b 0 4 = 0x00010000 ∧ payload.length = len ∧ (b.drop 0x40).take 64 = sha512 (b.take 0x40 ++ payload) then
    some ⟨numAt b 4 4, numAt b 8 8, numAt b 0x10 4, numAt b 0x14 4, numAt b 0x18 4, numAt b 0x28 8, payload⟩
  else none

/-! ## The manifest (R389) -/

/-- A barrier instance in a manifest: scope, index, instance, E, count and parity. -/
def manifestBar (e : BarKey × Barrier) : List Byte :=
  packN 1 [e.1.scope.code, e.1.index] ++ bytesOf 2 0 ++ packN 4 [e.1.inst, e.2.e % 2 ^ 28, e.2.count % 2 ^ 28 + fieldBit e.2.parity 28]
/-- The deques that a launch owns, in the layout of R356. -/
def State.launchDeques (s : State) (lid : Word) : List (Nat × List DWord) :=
  s.cores.filterMap (fun c => if c.2.deque.owner = some lid then some (c.1, c.2.deque.items) else none)
/-- The manifest of a launch: its record, the step number, its root, its barrier instances and its deque items. -/
def State.manifest (s : State) (l : Launch) (step : Nat) : List Byte :=
  let bars := s.bars.filter (fun b => b.1.lid == l.record.lid)
  let deques := s.launchDeques l.record.lid
  l.record.bytes ++ packN 4 [step, bars.length] ++ packN 8 [l.root] ++ packN 4 [deques.length, 0] ++ bars.flatMap manifestBar ++
  deques.flatMap (fun d => packN 4 [placeWord d.1, l.record.lid.toNat, d.2.length, 0] ++ d.2.flatMap (fun x => bytesOf 8 x.toNat))

/-- The pieces of at most 256 MiB of n bytes from an address. -/
def piecesOf : (fuel : Nat) → (a n : Nat) → List (Nat × Nat)
  | 0, _, _ => []
  | k + 1, a, n => if n = 0 then [] else (a, min n (2 ^ 28)) :: piecesOf k (a + 2 ^ 28) (n - 2 ^ 28)
/-- The regions of the region list, cut into pieces. -/
def State.regionPieces (s : State) : List (Nat × Nat) :=
  (List.range (min s.ck.nreg 4096)).flatMap fun i =>
    let a := s.ck.regions.toNat + 16 * i
    let n := s.memVal (a + 8) 4 * 65536
    piecesOf (n / 2 ^ 28 + 1) (s.memVal a 8) n

/-- The shards of a checkpoint of a launch at a step, given the images of its groups. -/
def State.shards (s : State) (l : Launch) (step : Nat) (imgs : List (List Byte)) : List (List Byte) :=
  let pieces := s.regionPieces
  let count := 1 + imgs.length + pieces.length
  let head := fun (kind i len addr : Nat) => shardHead kind s.ck.job.toNat step i count s.domid len addr
  let m := s.manifest l step
  shardOf (head 0 0 m.length 0) m ::
  ((List.range imgs.length).zip imgs).map (fun e => shardOf (head 1 (1 + e.1) e.2.length 0) e.2) ++
  ((List.range pieces.length).zip pieces).map (fun e =>
    shardOf (head 2 (1 + imgs.length + e.1) e.2.2 e.2.1) (memBytes s.mem e.2.1 e.2.2))

/-! ## Step boundaries (R192) -/

/-- Is the warp counted: it waits in STEP, what it did before is performed and acknowledged, and the gate holds nothing (R192, R329)? -/
def Warp.counted (w : Warp) : Bool :=
  w.waiting == .step && !w.released && w.log.all (fun e => e.2.tag == 0) &&
  w.pend.all (fun p => (!p.isAccess && !p.inGate) || p.stage == .queued)
/-- Has the launch reached a step boundary: some warp lives, every warp that has not ended is counted, and its commands can stop
where they stand, since the boundary may save the groups (R299)? -/
def State.atBoundary (s : State) (l : Launch) : Bool :=
  let ws := l.allWarps.filterMap s.warp?
  l.stage == .running && l.cores && decide (l.gangs ≤ l.placed) && ws.any (fun w => !w.ended) && ws.all (fun w => w.ended || w.counted) &&
  s.groups.all (fun g => g.1.lid != l.record.lid || (s.groupCore g.1).all s.commandsAtStop)

/-- The die set that an elastic launch changes to at this boundary, if it changes. -/
def State.elasticDies (s : State) (l : Launch) : Option (List Nat) :=
  let n := max l.record.mindies (min l.record.maxdies s.front.etgt)
  if !l.elastic || s.front.elid != l.record.lid || s.front.etgt == 0 || l.dies.length == n then none
  else
    let ds := s.diesInService.take n
    if ds.length = n ∧ l.gangs ≤ (ds.map (s.dieTakes l.record)).foldl (· + ·) 0 then some ds else none
/-- Is a checkpoint of the launch due at this boundary? -/
def State.checkpointDue (s : State) (l : Launch) : Bool := s.ck.arm && s.ck.lid == l.record.lid && s.ck.step == l.stepNext

/-- A group of the launch that is resident leaves its core with its image in the hands of the engine. -/
def State.liftGroup (s : State) (g : GroupKey) : State :=
  match s.groupCore g with
  | some c =>
    let t := s.settleGroup g c
    t.leaveCore g c (.image (t.image g))
  | none => s
/-- The groups of a launch that have not ended, ascending. -/
def State.launchGroups (s : State) (lid : Word) : List GroupKey :=
  sortBy (·.g) ((s.groups.filter (fun g => g.1.lid == lid)).map (·.1))

/-- An elastic step: every group is swapped out, the die set changes, and the wide barriers start afresh but for their
parity. None while the pool has too little room. -/
def State.elasticStep (s : State) (l : Launch) (dies : List Nat) : Option State :=
  ((s.launchGroups l.record.lid).foldl (fun (acc : Option State) g => acc.bind (·.swapOne g)) (some s)).map fun (s : State) =>
    let s := s.modLaunch l.record.lid (fun l => { l with dies := dies, whole := true, rehome := true, rebase := true })
    { s with bars := s.bars.map (fun (b : BarKey × Barrier) => (b.1, if b.1.lid = l.record.lid ∧ (b.1.scope = .die ∨ b.1.scope = .package ∨ b.1.scope = .domain)
        then { b.2 with e := s.defaultE b.1, count := 0, engines := 0, top := 0 } else b.2)) }

/-- The checkpoint's own registers as its copies begin. -/
def Checkpoint.begin_ (k : Checkpoint) (step : Word) (shards : List (List Byte)) : Checkpoint :=
  let copies := bitsOf 3 k.enables.toNat
  if copies.isEmpty then { k with arm := false, stat := 8 }
  else { k with arm := false, busy := true, stat := 0, shards := shards, pending := copies, copyStep := step }
/-- The checkpoint at a boundary: every group leaves, the shards are formed and read, and the groups are to be placed again. -/
def State.takeCheckpoint (s : State) (l : Launch) (step : Word) : State :=
  let gs := s.launchGroups l.record.lid
  let s := (gs.foldl (fun s g => s.liftGroup g) s).modLaunch l.record.lid (fun l => { l with whole := true })
  let shards := s.shards l step.toNat (gs.map s.imageBytes)
  let s := { s with ck := s.ck.begin_ step shards }
  if s.ck.busy then s else s.send (.vector 6)

/-- Every waiting warp of the launch is released: its STEP has left the core, so that no rollback goes back past it (R329). -/
def State.releaseStep (s : State) (l : Launch) : State :=
  l.allWarps.foldl (fun s k => s.modWarp k (fun w => if w.waiting = .step then { w.commit with released := true } else w)) s
/-- The boundary: the step number rises, then what R193 and a pending checkpoint ask, then every warp goes on. -/
def State.boundary (s : State) (l : Launch) : State :=
  let lid := l.record.lid
  if !s.atBoundary l || (s.checkpointDue l && s.ck.busy) || s.grid.down then s
  else
    let t := (s.flushLaunch lid).modLaunch lid (fun l => { l with stepNo := l.stepNext })
    let u := match s.elasticDies l with
      | none => some t
      | some ds => t.elasticStep l ds
    match u with
    | none => s.waitForRoom ((s.groups.filter (fun g => g.1.lid == lid && (s.groupCore g.1).isSome)).map (·.1))
    | some u =>
      let u : State := { u with groups := u.groups.map (fun g => (g.1, if g.1.lid = lid then { g.2 with waitsRoom := false } else g.2)) }
      let l' := (u.launch? lid).getD l
      (if s.checkpointDue l then u.takeCheckpoint l' l.stepNext else u).releaseStep l
/-- STEP_BOUNDARY (R192). -/
def execStepBoundary (lid : BitVec 32) (s : State) : Out :=
  .next (match s.launch? lid with
    | some l => s.boundary l
    | none => s)

/-! ## The copies (R389) -/

/-- Bytes of one half. -/
def Checkpoint.halfSize (k : Checkpoint) : Nat := k.half * 65536
/-- Where the half of a step begins, from an area's base. -/
def Checkpoint.halfAt (k : Checkpoint) (base : Nat) (step : Nat) : Nat := base + step % 2 * k.halfSize
/-- The shards that fit in a half, with their offsets. -/
def layShards (at_ room : Nat) : List (List Byte) → List (Nat × List Byte)
  | [] => []
  | x :: l => if at_ + x.length ≤ room then (at_, x) :: layShards (at_ + x.length) room l else []
/-- Does far memory back n bytes from an address? -/
def State.backsFar (s : State) (a n : Nat) : Bool := s.region a == .far && s.backs a n
/-- Write one shard of a copy: 0 local, 1 buddy, 2 file store. -/
def State.writeShard (s : State) (copy : Nat) (off : Nat) (b : List Byte) : State :=
  let step := s.ck.copyStep.toNat
  match copy with
  | 0 => s.writeOutside (s.ck.halfAt s.ck.localArea.toNat step + off) b
  | 1 => s.send (.shard s.ck.buddy (s.ck.halfAt s.ck.remote.toNat step + off) b)
  | _ => s.send (.fileShard (s.ck.halfAt s.ck.peer.toNat step + off) b)
/-- A copy is done: its error bit, and DONE when it was the last. -/
def Checkpoint.copyDone (k : Checkpoint) (copy : Nat) (failed : Bool) : Checkpoint :=
  let rest := k.pending.erase copy
  let stat := if failed then k.stat ||| BitVec.ofNat 4 (2 ^ copy) else k.stat
  if rest.isEmpty then { k with pending := [], busy := false, shards := [], stat := stat ||| 8 } else { k with pending := rest, stat := stat }
/-- A copy finishes or fails. The local one writes the shards that fit in its half and that far memory backs; a copy on another
package or at the file store has written the first `written` shards when it fails. -/
def State.copyDone (s : State) (copy written : Nat) : State :=
  if !s.ck.pending.contains copy then s
  else
    let laid := layShards 0 s.ck.halfSize s.ck.shards
    let base := s.ck.halfAt s.ck.localArea.toNat s.ck.copyStep.toNat
    let fit := if copy = 0 then laid.takeWhile (fun e => s.backsFar (base + e.1) e.2.length) else laid.take written
    let t := fit.foldl (fun s e => s.writeShard copy e.1 e.2) s
    let t := { t with ck := t.ck.copyDone copy (decide (fit.length < s.ck.shards.length)) }
    if t.ck.busy then t else t.send (.vector 6)
/-- CHECKPOINT_COPY_DONE (R389). -/
def execCheckpointCopyDone (copy written : Nat) (s : State) : Out := .next (s.copyDone copy written)

/-! ## Restore (R391, R392) -/

/-- The shard at an address, when n bytes from there hold one with a good digest in far memory that is backed. -/
def State.shardAt (s : State) (a n : Nat) : Option (List Byte) :=
  let size := 128 + s.memVal (a + 0x20) 8
  if s.backsFar a 128 && decide (size ≤ n) && s.backsFar a size && (Shard.parse (memBytes s.mem a size)).isSome then
    some (memBytes s.mem a size) else none
/-- The shards in n bytes of a local half from an address: the one after a shard follows it, and where none begins the next 64 KiB are
looked at. -/
def State.scanHalf (s : State) : (fuel : Nat) → (a n : Nat) → List (List Byte)
  | 0, _, _ => []
  | k + 1, a, n =>
    if n < 128 then []
    else match s.shardAt a n with
      | some b => b :: State.scanHalf s k (a + align64k b.length) (n - align64k b.length)
      | none => State.scanHalf s k (a + 65536) (n - 65536)
/-- The shards of the local copy. -/
def State.localShards (s : State) : List (List Byte) :=
  let n := s.ck.halfSize
  let half := fun (i : Nat) => s.scanHalf (s.ck.half + 1) (s.ck.localArea.toNat + i * n) n
  half 0 ++ half 1

/-- The set of a step that a manifest heads, when it is complete: its shards in order. -/
def completeSet (l : List Shard) (m : Shard) : Option (List Shard) :=
  (List.range m.count).foldr (fun i acc => acc.bind fun rest =>
    (l.find? (fun x => x.step == m.step && x.index == i && x.count == m.count)).map (fun x => x :: rest)) (some [])
/-- The highest step with a complete set. -/
def bestSet (l : List Shard) : Option (List Shard) :=
  let sets := (l.filter (fun x => x.index == 0 && x.kind == 0)).filterMap (completeSet l)
  sets.foldl (fun best x => match best, x.head? with
    | some b, some m => if ((b.head?).map (·.step)).getD 0 < m.step then some x else some b
    | none, _ => some x
    | b, none => b) none

/-- The barrier instances of a manifest. -/
def parseBars (lid : Word) (b : List Byte) (n : Nat) : List (BarKey × Barrier) :=
  (List.range n).filterMap fun i =>
    let x := b.drop (16 * i)
    (Scope.ofCode (numAt x 0 1)).map fun sc =>
      (⟨lid, sc, numAt x 4 4, numAt x 1 1⟩, { e := numAt x 8 4, count := numAt x 12 4 % 2 ^ 28, parity := (numAt x 12 4).testBit 28 })
/-- The core number of a placement word. -/
def placeCore (w : Nat) : Nat := w / 2 ^ 30 % 4 * 384 + w / 2 ^ 24 % 64 * 32 + w % 32
/-- The deques of a manifest: core and items. -/
def parseDeques : (n : Nat) → List Byte → List (Nat × List DWord)
  | 0, _ => []
  | k + 1, b =>
    let n := numAt b 8 4
    (placeCore (numAt b 0 4), (chunks 8 n (b.drop 16)).map (BitVec.ofNat 64)) :: parseDeques k (b.drop (16 + 8 * n))

/-- What a command holds from its issue to its end: the tiles that it reads, the tile that it fills, its boxes, and its ring slot.
They follow from its words and its parameter block. -/
def State.holdings (s : State) (g : GroupKey) (x : Command) : Plan :=
  let tile := fun (t : Nat) => ((s.warp? x.key).map (·.tile t)).getD {}
  match x.instr with
  | .mma _ _ ta tb slot _ _ _ => { params := x.params, reads := x.params.mmaTiles ta.val tb.val, slot := slot.val }
  | .epi _ _ t dst _ fslot rsc csc rbi cbi _ =>
    { params := x.params, fill := if dst = .tile then some t.val else none, slot := ((s.group? g).map (·.tail)).getD 0,
      boxes := ((s.epiBoxes x.key dst fslot (rsc || csc || rbi || cbi) x.params).toOption).getD [] }
  | .copy _ _ t src dst mode esz _ =>
    { params := x.params, reads := if src = .tile then [t.val] else [], fill := if dst = .tile then some t.val else none,
      boxes := ((s.copyBoxes x.key (tile t.val) src dst mode esz x.params).toOption).getD [] }
  | _ => { params := x.params }
/-- A command of an adopted image, `i` in its issue order. One that has not ended is to be admitted again (R328), also one that a
fault stopped: its record is the other machine's. Its issuing fibre's generator at issue, which R327 does not give, is a free value
(DESIGN CHOICE, log entry 150); its PC and header, which it does not give either, read as 0 (DESIGN CHOICE, log entry 151). -/
def State.rebuilt (s : State) (g : GroupKey) (i : Nat) (x : Command) : Command :=
  let p := s.holdings g x
  let x := { x with seq := s.tick, rank := 32 * g.g + i }
  if x.stage = .ended then x
  else { x with stage := .paused, fault := 0, gen := Config.restoredGen s.tick (32 * g.g + i), slot := p.slot, reads := p.reads,
                fill := p.fill }
/-- The cause of an ended command of an adopted image: its fibre's recorded ENGINE_FAULT that no command has yet, else one more
(R315, R325, R327). -/
def Fibre.causeOf (f : Fibre) (x : Command) : Fibre :=
  let mine := fun (d : Deferred) => d.cause == engineFault && d.source == .access []
  match f.causes.find? mine with
  | some d => { f with causes := f.causes.replace d { d with source := .command x.num } }
  | none => { f with causes := f.causes ++ [x.cause] }
/-- The commands of an adopted image with what they hold (R299, R327, R392). -/
def State.rebuildCommands (s : State) (g : GroupKey) : State :=
  match s.group? g with
  | none => s
  | some q =>
    let cs := ((List.range q.cmds.length).zip q.cmds).map (fun e => s.rebuilt g e.1 e.2)
    let locks := (cs.filter (·.stage != .ended)).flatMap (fun x => (s.holdings g x).boxes.map (fun b => ⟨x.num, b.1, b.2⟩))
    (cs.filter (·.stage == .ended)).foldl (fun s x => s.modFibre x.key x.lane (·.causeOf x))
      (s.setGroup g { q with cmds := cs, locks := locks })
/-- Adopt one image: its group is out, and its warps stand in the STEP that the boundary completes. -/
def State.adopt (s : State) (lid : Word) (b : List Byte) : State :=
  let g : GroupKey := ⟨lid, numAt b 8 4⟩
  let s := ((s.setGroup g { place := .image b }).ofImage g b).rebuildCommands g
  (s.warpsOf g).foldl (fun s k => s.modWarp k (fun w => if w.ended then w else { w with waiting := .step, released := true })) s

/-- Write the regions, adopt the images, and leave the launch to be placed with its step number. -/
def State.applySet (s : State) (r : LaunchRec) (root : Nat) (m : Shard) (shards : List Shard) : State :=
  let imgs := (shards.filter (fun x => x.kind == 1)).map (·.payload)
  let s := (shards.filter (fun x => x.kind == 2)).foldl (fun s x => s.writeOutside x.addr x.payload) s
  let ds := (s.dieSet r.mindies r.maxdies).getD s.diesInService
  let gone := (r.groups : Int) - imgs.length
  let s := s.accept r root 0 (Config.otherWarps s.tick r.lid)
  let s := s.modLaunch r.lid (fun l => { l with
    stage := .running, dies := ds, started := s.tick, placed := l.gangs, groupsEnded := gone.toNat
    stepNo := BitVec.ofNat 32 m.step, stepNext := BitVec.ofNat 32 m.step, whole := true, rehome := true })
  let s := imgs.foldl (fun s b => s.adopt r.lid b) s
  let nb := numAt m.payload 132 4
  let s := { s with bars := s.bars ++ parseBars r.lid (m.payload.drop 152) nb }
  (parseDeques (numAt m.payload 144 4) (m.payload.drop (152 + 16 * nb))).foldl (fun s d => s.modCore d.1 (fun k =>
    if k.deque.owner.isNone ∧ d.2 ≠ [] then { k with deque := { owner := some r.lid, items := d.2 } } else k)) s

/-- RSSTAT is written, BUSY clears, and vector 7 is raised. -/
def State.restoreDone (s : State) (stat : Nat) (step : Option Nat) : State :=
  ({ s with ck := { s.ck with rsBusy := false, rsStat := BitVec.ofNat 32 stat, rsStep := match step with
      | some n => BitVec.ofNat 32 n
      | none => s.ck.rsStep } } : State).send (.vector 7)
/-- The restore: the highest complete set, validated before anything is written. `buddy` and `peer` are the shards that were
read from those copies. -/
def State.restore (s : State) (buddy peer : List (List Byte)) : State :=
  if !s.ck.rsBusy || s.grid.down then s
  else
    let src := s.ck.rsSrc.toNat
    let raw := (if src.testBit 0 then s.localShards else []) ++ (if src.testBit 1 then buddy else []) ++ (if src.testBit 2 then peer else [])
    let found := (raw.filterMap Shard.parse).filter (fun x => x.job == s.ck.rsJob.toNat)
    match bestSet found with
    | some (m :: rest) =>
      let r := LaunchRec.parse (m.payload.take 128)
      (match s.validate r with
      | 0 => (s.applySet r (numAt m.payload 136 8) m (m :: rest)).restoreDone 1 (some m.step)
      | code => s.restoreDone (3 + code * 256) none)
    | _ => s.restoreDone 2 none
/-- RESTORE_GO: a GO while BUSY is ignored. -/
def execRestoreGo (s : State) : Out := .next { s with ck := { s.ck with rsBusy := true } }
/-- RESTORE_COMPLETE. -/
def execRestoreComplete (buddy peer : List (List (BitVec 8))) (s : State) : Out := .next (s.restore buddy peer)

/-! ## The registers of the block (R388, R391) -/

/-- A write to a 32-bit register. -/
def Checkpoint.write (k : Checkpoint) (off : Nat) (v : Word) : Checkpoint :=
  if off < 0x48 ∧ k.busy then k
  else match off with
    | 0x08 => { k with lid := v }
    | 0x0C => { k with step := v }
    | 0x10 => { k with buddy := v.toNat % 2 ^ 13 }
    | 0x14 => { k with enables := BitVec.ofNat 3 (v.toNat / 2), arm := v.getLsbD 0 }
    | 0x18 => { k with stat := k.stat &&& ~~~(BitVec.ofNat 4 (v.toNat / 2)), abandoned := k.abandoned && !v.getLsbD 0 }
    | 0x40 => { k with nreg := v.toNat % 2 ^ 16 }
    | 0x44 => { k with half := v.toNat }
    | 0x88 => { k with rsSrc := v &&& 0x1FFF0007 }
    | 0x8C => { k with rsBusy := k.rsBusy || v.getLsbD 0 }
    | _ => k
/-- A write to a 64-bit register. -/
def Checkpoint.write64 (k : Checkpoint) (off : Nat) (v : DWord) : Checkpoint :=
  if off < 0x48 ∧ k.busy then k
  else match off with
    | 0x00 => { k with job := v }
    | 0x20 => { k with localArea := v }
    | 0x28 => { k with remote := v }
    | 0x30 => { k with peer := v }
    | 0x38 => { k with regions := v }
    | 0x80 => { k with rsJob := v }
    | _ => k

end Sys2Proof.Machine
end

