-- ==== Sys2Proof/Machine/Flags.lean ====
section
/-! DEFINITION. The results that go to predicates: the compare codes of R62 on integers (R83) and on floating values (R105,
R109), PCOMB's table (R84), and the predicate word (R86). -/

namespace Sys2Proof.Machine

/-- The relation of an integer compare code (R62, R83). -/
def intCompare (cc : IntCmp) (a b : Word) : Bool :=
  match cc with
  | .eq => a == b
  | .ne => a != b
  | .lt => decide (a.toInt < b.toInt)
  | .le => decide (a.toInt ≤ b.toInt)
  | .gt => decide (b.toInt < a.toInt)
  | .ge => decide (b.toInt ≤ a.toInt)
  | .lo => decide (a.toNat < b.toNat)
  | .hs => decide (b.toNat ≤ a.toNat)

/-- The relation of a floating compare code on two values (R62, R105). -/
def valCompare (cc : FltCmp) (x y : FVal) : Bool :=
  let un := x == .nan || y == .nan
  match cc with
  | .eq => x.eq y
  | .ne => un || !x.eq y
  | .lt => x.lt y
  | .le => x.lt y || x.eq y
  | .gt => y.lt x
  | .ge => y.lt x || x.eq y
  | .un => un
  | .num => !un

/-- A floating compare of two encodings. -/
def fltCompare (f : Fmt) (cc : FltCmp) (a b : Nat) : Bool := valCompare cc (fdec f a) (fdec f b)

/-- PCOMB's truth table (R84). -/
def tableBit (table : BitVec 8) (old a b : Bool) : Bool :=
  table.getLsbD (4 * old.toNat + 2 * a.toNat + b.toNat)

/-- The predicate word that PREAD reads (R86). -/
def predWord (p : BitVec 7) : Word := p.setWidth 32
/-- The predicates after PWRITE of va under the mask vb (R86). -/
def predWrite (p : BitVec 7) (a b : Word) : BitVec 7 :=
  (p &&& ~~~(b.setWidth 7)) ||| (a.setWidth 7 &&& b.setWidth 7)

end Sys2Proof.Machine
end

