-- ==== Sys2Proof/Machine/Integer.lean ====
section
/-! DEFINITION. Integer, logic, compare and move instructions (R74 to R92). -/

namespace Sys2Proof.Machine

/-- A three-register instruction on 32-bit values (R77). -/
def binary (f : FmtA) (s : State) (op : Word → Word → Word) : Out :=
  plain s f.g (usesA f 1 1 1) (fun _ x => x.setV f.d (op (x.val f.a) (x.val f.b)))
/-- The same with vb unused. -/
def unary (f : FmtU) (s : State) (op : Word → Word) : Out :=
  plain s f.g (usesU f 1 1) (fun _ x => x.setV f.d (op (x.val f.a)))
/-- An immediate instruction (R82). -/
def immediate (f : FmtB) (s : State) (op : Word → Word) : Out :=
  plain s f.g (usesB f) (fun _ x => x.setV f.d (op (x.val f.a)))
/-- A three-register instruction that reads vd as an accumulator (R76, R99). -/
def accumulate (f : FmtA) (s : State) (op : Word → Word → Word → Word) : Out :=
  plain s f.g (usesAcc f) (fun _ x => x.setV f.d (op (x.val f.d) (x.val f.a) (x.val f.b)))
/-- A divide (R76, R79): a long-latency producer. -/
def divide (f : FmtA) (s : State) (op : Word → Word → Word) : Out :=
  latent s f.g (usesA f 1 1 1) (fun x => x.entriesFrom f.d 1) (fun _ x => (x, [op (x.val f.a) (x.val f.b)]))
/-- The shift count of a register (R77). -/
def shiftCount (b : Word) : Nat := b.toNat % 32
/-- The sign-extended immediate as a word (R82). -/
def immWord (i : BitVec 8) : Word := i.signExtend 32


/-- IADD (R77). -/
def execIadd (f : FmtA) (s : State) : Out :=
  binary f s (fun a b => a + b)

/-- ISUB (R77). -/
def execIsub (f : FmtA) (s : State) : Out :=
  binary f s (fun a b => a - b)

/-- IMUL (R77). -/
def execImul (f : FmtA) (s : State) : Out :=
  binary f s (fun a b => a * b)

/-- IMULHI.s32 (R77). -/
def execImulhiS32 (f : FmtA) (s : State) : Out :=
  binary f s (fun a b => wrap32 (Int.fdiv (a.toInt * b.toInt) (2 ^ 32)))

/-- IMULHI.n32 (R77). -/
def execImulhiN32 (f : FmtA) (s : State) : Out :=
  binary f s (fun a b => BitVec.ofNat 32 (a.toNat * b.toNat / 2 ^ 32))

/-- IMIN.s32 (R77). -/
def execIminS32 (f : FmtA) (s : State) : Out :=
  binary f s (fun a b => if a.toInt ≤ b.toInt then a else b)

/-- IMIN.n32 (R77). -/
def execIminN32 (f : FmtA) (s : State) : Out :=
  binary f s (fun a b => if a.toNat ≤ b.toNat then a else b)

/-- IMAX.s32 (R77). -/
def execImaxS32 (f : FmtA) (s : State) : Out :=
  binary f s (fun a b => if a.toInt ≤ b.toInt then b else a)

/-- IMAX.n32 (R77). -/
def execImaxN32 (f : FmtA) (s : State) : Out :=
  binary f s (fun a b => if a.toNat ≤ b.toNat then b else a)

/-- IADDSAT.s32 (R77). -/
def execIaddsatS32 (f : FmtA) (s : State) : Out :=
  binary f s (fun a b => satS32 (a.toInt + b.toInt))

/-- ISUBSAT.s32 (R77). -/
def execIsubsatS32 (f : FmtA) (s : State) : Out :=
  binary f s (fun a b => satS32 (a.toInt - b.toInt))

/-- AND (R77). -/
def execAnd (f : FmtA) (s : State) : Out :=
  binary f s (fun a b => a &&& b)

/-- OR (R77). -/
def execOr (f : FmtA) (s : State) : Out :=
  binary f s (fun a b => a ||| b)

/-- XOR (R77). -/
def execXor (f : FmtA) (s : State) : Out :=
  binary f s (fun a b => a ^^^ b)

/-- ANDN (R77). -/
def execAndn (f : FmtA) (s : State) : Out :=
  binary f s (fun a b => a &&& ~~~b)

/-- SHL (R77). -/
def execShl (f : FmtA) (s : State) : Out :=
  binary f s (fun a b => shlW a (shiftCount b))

/-- SHR (R77). -/
def execShr (f : FmtA) (s : State) : Out :=
  binary f s (fun a b => shrW a (shiftCount b))

/-- SAR (R77). -/
def execSar (f : FmtA) (s : State) : Out :=
  binary f s (fun a b => sarW a (shiftCount b))

/-- ROTL (R77). -/
def execRotl (f : FmtA) (s : State) : Out :=
  binary f s (fun a b => rotlW a (shiftCount b))

/-- BFX.n32 (R81). -/
def execBfxN32 (f : FmtA) (s : State) : Out :=
  binary f s (fun a b => bfxN a b)

/-- BFX.s32 (R81). -/
def execBfxS32 (f : FmtA) (s : State) : Out :=
  binary f s (fun a b => bfxS a b)

/-- IABS (R77). -/
def execIabs (f : FmtU) (s : State) : Out :=
  unary f s (fun a => wrap32 (a.toInt.natAbs : Int))

/-- POPC (R77). -/
def execPopc (f : FmtU) (s : State) : Out :=
  unary f s (fun a => popcount a)

/-- CLZ (R77). -/
def execClz (f : FmtU) (s : State) : Out :=
  unary f s (fun a => countLeadingZeros a)

/-- BREV (R77). -/
def execBrev (f : FmtU) (s : State) : Out :=
  unary f s (fun a => bitReverse a)

/-- MOV (R77). -/
def execMov (f : FmtU) (s : State) : Out :=
  unary f s (fun a => a)

/-- IADDI (R82). -/
def execIaddi (f : FmtB) (s : State) : Out :=
  immediate f s (fun a => a + immWord f.imm)

/-- ANDI (R82). -/
def execAndi (f : FmtB) (s : State) : Out :=
  immediate f s (fun a => a &&& immWord f.imm)

/-- ORI (R82). -/
def execOri (f : FmtB) (s : State) : Out :=
  immediate f s (fun a => a ||| immWord f.imm)

/-- XORI (R82). -/
def execXori (f : FmtB) (s : State) : Out :=
  immediate f s (fun a => a ^^^ immWord f.imm)

/-- SHLI (R82). -/
def execShli (f : FmtB) (s : State) : Out :=
  immediate f s (fun a => shlW a (f.imm.toNat % 32))

/-- SHRI (R82). -/
def execShri (f : FmtB) (s : State) : Out :=
  immediate f s (fun a => shrW a (f.imm.toNat % 32))

/-- SARI (R82). -/
def execSari (f : FmtB) (s : State) : Out :=
  immediate f s (fun a => sarW a (f.imm.toNat % 32))

/-- IDOT4.s8 (R80): vd is the accumulator. -/
def execIdot4S8 (f : FmtA) (s : State) : Out :=
  accumulate f s (fun d a b => dot4 d a b)

/-- BFI (R81): vd is read as an accumulator. -/
def execBfi (f : FmtA) (s : State) : Out :=
  accumulate f s (fun d a b => bfi d a b)

/-- IDIV.s32 (R79). -/
def execIdivS32 (f : FmtA) (s : State) : Out :=
  divide f s (fun a b => (divS a b).1)

/-- IDIV.n32 (R79). -/
def execIdivN32 (f : FmtA) (s : State) : Out :=
  divide f s (fun a b => (divN a b).1)

/-- IREM.s32 (R79). -/
def execIremS32 (f : FmtA) (s : State) : Out :=
  divide f s (fun a b => (divS a b).2)

/-- IREM.n32 (R79). -/
def execIremN32 (f : FmtA) (s : State) : Out :=
  divide f s (fun a b => (divN a b).2)

/-- IADD64 on pairs (R78). -/
def execIadd64 (f : FmtA) (s : State) : Out :=
  plain s f.g (usesA f 2 2 2) (fun _ x => x.setV64 f.d (x.val64 f.a + x.val64 f.b))

/-- ISUB64 on pairs (R78). -/
def execIsub64 (f : FmtA) (s : State) : Out :=
  plain s f.g (usesA f 2 2 2) (fun _ x => x.setV64 f.d (x.val64 f.a - x.val64 f.b))

/-- IMULW.s32 into a pair (R78). -/
def execImulwS32 (f : FmtA) (s : State) : Out :=
  plain s f.g (usesA f 2 1 1) (fun _ x => x.setV64 f.d (wrap64 ((x.val f.a).toInt * (x.val f.b).toInt)))

/-- IMULW.n32 into a pair (R78). -/
def execImulwN32 (f : FmtA) (s : State) : Out :=
  plain s f.g (usesA f 2 1 1) (fun _ x => x.setV64 f.d (BitVec.ofNat 64 ((x.val f.a).toNat * (x.val f.b).toNat)))

/-- ICMP (R83); a pd of 7 discards the result but the sources are read. -/
def execIcmp (f : FmtPI) (s : State) : Out :=
  plain s f.g { src := [vop f.a f.fa, vop f.b f.fb] } (fun _ x => x.setPred f.pd (intCompare f.cc (x.val f.a) (x.val f.b)))

/-- PCOMB (R84): it waits on nothing. -/
def execPcomb (g : Guard) (pd pa pb : Pred) (table : BitVec 8) (s : State) : Out :=
  plain s g {} (fun _ x => x.setPred pd (tableBit table (x.pred pd) (x.pred pa) (x.pred pb)))

/-- PICK (R85): its guard field selects, and it executes in every fibre of the set. -/
def execPick (f : FmtA) (s : State) : Out :=
  .next (s.runIssue none false false (usesA f 1 1 1) (fun x s => x.eachLane s
    (fun _ y => y.setV f.d (if guardHolds f.g y then y.val f.a else y.val f.b))))

/-- PREAD (R86). -/
def execPread (g : Guard) (d : Reg) (s : State) : Out :=
  plain s g { dst := [vop d] } (fun _ x => x.setV d (predWord x.preds))

/-- PWRITE (R86). -/
def execPwrite (g : Guard) (a b : Reg) (fa fb : Bool) (s : State) : Out :=
  plain s g { src := [vop a fa, vop b fb] } (fun _ x => { x with preds := predWrite x.preds (x.val a) (x.val b) })

/-- MOVS (R87): a fibre reads an s register of its warp. -/
def execMovs (g : Guard) (d sb : Reg) (fb : Bool) (s : State) : Out :=
  .next (s.runIssue (some g) false false { src := [sop sb fb], dst := [vop d] } (fun x s => x.eachLane s (fun _ y => y.setV d (x.w.sval sb))))

/-- MOVI (R88). -/
def execMovi (g : Guard) (d : Reg) (imm : BitVec 32) (s : State) : Out :=
  plain s g { dst := [vop d] } (fun _ x => x.setV d imm)

/-- IMAD and its variants (R90): the product and sum are exact before the single narrowing. -/
def execImad (f : FmtA) (c : Reg) (fc : Bool) (var : ImadVar) (s : State) : Out :=
  let wide := var == .wideS || var == .wideN
  let n := if wide then 2 else 1
  plain s f.g { src := [vop f.a f.fa, vop f.b f.fb, vop c fc n], dst := [vop f.d false n] } fun _ x =>
    let (a, b) := (x.val f.a, x.val f.b)
    match var with
    | .plain => x.setV f.d (wrap32 (a.toInt * b.toInt + (x.val c).toInt))
    | .wideS => x.setV64 f.d (wrap64 (a.toInt * b.toInt + (x.val64 c).toInt))
    | .wideN => x.setV64 f.d (BitVec.ofNat 64 (a.toNat * b.toNat + (x.val64 c).toNat))
    | .sat => x.setV f.d (satS32 (a.toInt * b.toInt + (x.val c).toInt))

/-! ## The uniform ALU (R88, R89, R91, R92) -/

/-- SMOVI (R88): one write per issue, when some fibre's guard is true (R89). -/
def execSmovi (g : Guard) (d : Reg) (imm : BitVec 32) (s : State) : Out :=
  .next (s.runIssue (some g) false false { dst := [sop d] } (fun x s =>
    .next (if x.active.isEmpty then s else s.modWarp x.key (·.setS d.val imm))))

/-- How many s registers a sub-operation's destination, first and second operand name (R92). -/
def saluWidths : SaluOp → Nat × Nat × Nat
  | .add64 => (2, 2, 1)
  | .addp64 | .subp64 => (2, 2, 2)
  | .mov => (1, 0, 1)
  | .popc | .clz => (1, 1, 0)
  | _ => (1, 1, 1)

/-- The effect of a sub-operation on the warp's s registers; `b` is the second operand and `b64` its pair (R92). -/
def saluWrite (op : SaluOp) (d a : Reg) (b : Word) (b64 : DWord) (w : Warp) : Warp :=
  match op with
  | .add64 => w.setS64 d.val (w.sval64 a + b.signExtend 64)
  | .addp64 => w.setS64 d.val (w.sval64 a + b64)
  | .subp64 => w.setS64 d.val (w.sval64 a - b64)
  | _ => w.setS d.val (saluResult op (w.sval a) b)

/-- SALU (R91, R92): once per issue, without a guard or operand bits. -/
def execSalu (op : SaluOp) (d a b : Reg) (s : State) : Out :=
  let n := saluWidths op
  .next (s.runIssue none false false { src := [sop a false n.2.1, sop b false n.2.2], dst := [sop d false n.1] } (fun x s =>
    .next (s.modWarp x.key (fun w => saluWrite op d a (w.sval b) (w.sval64 b) w))))
/-- SALUI (R91, R92): the second operand is the sign-extended immediate. -/
def execSalui (op : SaluOp) (d a : Reg) (imm : BitVec 6) (s : State) : Out :=
  let n := saluWidths op
  .next (s.runIssue none false false { src := [sop a false n.2.1], dst := [sop d false n.1] } (fun x s =>
    .next (s.modWarp x.key (saluWrite op d a (imm.signExtend 32) 0))))

end Sys2Proof.Machine
end

