-- ==== Sys2Proof/Machine/Special.lean ====
section
/-! DEFINITION. The special functions of R112 and the activations of R304: the two FP32 neighbours of the exact value, found
from a fixed-point enclosure, and the free choice between them (R113). Fixed-point numbers have `prec` fraction bits. -/

namespace Sys2Proof.Machine

/-- Fraction bits of the fixed-point enclosures: every FP32 result of R112 is decided well within them. -/
def prec : Nat := 768
/-- The slack of an enclosure in units of 2^-prec: far above the truncation of any series and argument reduction below. -/
def slack : Nat := 2 ^ 160
/-- 1 in fixed point. -/
def one : Nat := 2 ^ prec

/-- The integer square root of n by bits, from bit k down. -/
def isqrtFrom : Nat → Nat → Nat → Nat
  | 0, _, r => r
  | k + 1, n, r => let r' := r + 2 ^ k; isqrtFrom k n (if r' * r' ≤ n then r' else r)
/-- The integer square root. -/
def isqrt (n : Nat) : Nat := isqrtFrom (Nat.log2 n / 2 + 1) n 0

/-- Sum of t^(2k+1) / (2k+1) with alternating signs or not, for fixed-point t below 1: `fuel` terms from the current
power. -/
def oddSeries (alt : Bool) : (fuel k : Nat) → (power sq : Nat) → Int
  | 0, _, _, _ => 0
  | n + 1, k, p, sq =>
    let term : Int := (p / (2 * k + 1) : Nat)
    (if alt && k % 2 == 1 then -term else term) + oddSeries alt n (k + 1) (p * sq / one) sq

/-- atan(1/q) in fixed point. -/
def atanInv (q : Nat) : Int := oddSeries true 400 0 (one / q) (one / (q * q))
/-- pi in fixed point (Machin's formula). -/
def piFix : Nat := (16 * atanInv 5 - 4 * atanInv 239).toNat
/-- ln 2 in fixed point: 2 atanh(1/3). -/
def ln2Fix : Nat := (2 * oddSeries false 400 0 (one / 3) (one / 9)).toNat

/-- exp(r) in fixed point for r in [0, 1): the Taylor series. -/
def expSeries : (fuel k : Nat) → (term r : Nat) → Nat
  | 0, _, _, _ => 0
  | n + 1, k, t, r => t + expSeries n (k + 1) (t * r / one / (k + 1)) r

/-- 2^x as fixed-point m in [1, 2) and an exponent, for a fixed-point x given as an integer. -/
def exp2Fix (x : Int) : Nat × Int :=
  let n := Int.fdiv x one
  let f := (x - n * one).toNat
  (expSeries 160 0 one (f * ln2Fix / one), n)

/-- sin (odd = true) or cos of fixed-point r in [0, 2): the Taylor series. -/
def trigSeries : (fuel k : Nat) → (term r2 : Nat) → Int
  | 0, _, _, _ => 0
  | n + 1, k, t, r2 => (t : Int) - trigSeries n (k + 2) (t * r2 / one / ((k + 1) * (k + 2))) r2
def sinFix (r : Nat) : Nat := (trigSeries 120 1 r (r * r / one)).toNat
def cosFix (r : Nat) : Nat := (trigSeries 120 0 one (r * r / one)).toNat

/-- ln of fixed-point m in [1, 2): 2 atanh((m - 1) / (m + 1)). -/
def lnFix (m : Nat) : Nat :=
  let t := (m - one) * one / (m + one)
  (2 * oddSeries false 260 0 t (t * t / one)).toNat

/-- The faithful results for a positive value known to lie in [lo, hi) x 2^e (R113): the code of the lower neighbour and
whether the upper one may be chosen. A value whose enclosure holds an FP32 number takes that number, which is a neighbour
of it on either side. -/
def neighbours (lo hi : Nat) (e : Int) : Nat × Bool :=
  let c1 := fround f32 .rtz false 0 (.fin false lo e)
  let c2 := fround f32 .rtz false 0 (.fin false (hi - 1) e)
  if c1 = c2 then (c1, true) else (c2, false)

/-- The result of a faithful function whose exact value is not representable: sign, enclosure, and the choice, which is a
free value that depends on the function and the input only (R112, R113). -/
def faithful (fn : Nat) (input : Word) (neg : Bool) (lo hi : Nat) (e : Int) : Nat :=
  let (c, two) := neighbours lo hi e
  signed f32 neg (if two && Config.specialUp fn input then c + 1 else c)

/-- An enclosure of a fixed-point value around an approximation. -/
def around (a : Nat) : Nat × Nat := (a - slack, a + slack)

/-- Is m x 2^e representable in FP32? -/
def representable (m : Nat) (e : Int) : Bool :=
  let c := fround f32 .rtz false 0 (.fin false m e)
  (fdec f32 c).eq (.fin false m e)

/-- FRCP (R112). -/
def frcp (x : Word) : Nat :=
  match fdec f32 x.toNat with
  | .nan => f32.nan
  | .inf s => signed f32 s 0
  | .fin s m e =>
    if m = 0 then signed f32 s (infCode f32)
    else
      let q := 2 ^ 200 / m
      if q * m = 2 ^ 200 && representable q (-200 - e) then signed f32 s (fround f32 .rtz false 0 (.fin false q (-200 - e)))
      else faithful 0 x s q (q + 1) (-200 - e)

/-- FRSQ (R112): the exact value is rational only when m x 2^e is the square of a rational. -/
def frsq (x : Word) : Nat :=
  match fdec f32 x.toNat with
  | .nan => f32.nan
  | .inf s => if s then f32.nan else 0
  | .fin s m e =>
    if m = 0 then signed f32 s (infCode f32)
    else if s then f32.nan
    else
      let (m, e) := if e % 2 = 0 then (m, e) else (2 * m, e - 1)
      let r := isqrt (2 ^ 400 / m)
      let e' := -200 - e / 2
      if r * r * m = 2 ^ 400 && representable r e' then fround f32 .rtz false 0 (.fin false r e')
      else faithful 1 x false r (r + 1) e'

/-- FSQRT (R112): correctly rounded to nearest even; the sticky bit below the root decides ties. -/
def fsqrt (x : Word) : Nat :=
  match fdec f32 x.toNat with
  | .nan => f32.nan
  | .inf s => if s then f32.nan else infCode f32
  | .fin s m e =>
    if m = 0 then signed f32 s 0
    else if s then f32.nan
    else
      let (m, e) := if e % 2 = 0 then (m, e) else (2 * m, e - 1)
      let n := m * 2 ^ 100
      let r := isqrt n
      froundRNE f32 (.fin false (2 * r + (if r * r = n then 0 else 1)) (e / 2 - 51))

/-- A dyadic as a fixed-point integer, rounded toward minus infinity. -/
def toFix (neg : Bool) (m : Nat) (e : Int) : Int :=
  let k := e + prec
  let v : Int := if neg then -(m : Int) else m
  if 0 ≤ k then v * 2 ^ k.toNat else Int.fdiv v (2 ^ (-k).toNat)

/-- FEX2 (R112): exact for integers; beyond the range of FP32 the neighbours are Max and Inf, or 0 and the least
subnormal. -/
def fex2 (x : Word) : Nat :=
  match fdec f32 x.toNat with
  | .nan => f32.nan
  | .inf s => if s then 0 else infCode f32
  | .fin s m e =>
    if m = 0 then 0x3F800000
    else
      let big := decide (9 < (Nat.log2 m : Int) + e)
      if big then (if s then faithful 3 x false 1 2 (-400) else faithful 3 x false 1 2 400)
      else
        let v := toFix s m e
        if v % one = 0 && representable 1 (v / one) then fround f32 .rtz false 0 (.fin false 1 (v / one))
        else
          let (a, n) := exp2Fix v
          let (lo, hi) := around a
          faithful 3 x false lo hi (n - prec)

/-- FLG2 (R112): exact for powers of two. -/
def flg2 (x : Word) : Nat :=
  match fdec f32 x.toNat with
  | .nan => f32.nan
  | .inf s => if s then f32.nan else infCode f32
  | .fin s m e =>
    if m = 0 then signed f32 true (infCode f32)
    else if s then f32.nan
    else
      let k := Nat.log2 m
      let n : Int := e + k
      if m = 2 ^ k then froundRNE f32 (.fin (decide (n < 0)) n.natAbs 0)
      else
        let v := n * one + (lnFix (m * one / 2 ^ k) * one / ln2Fix : Nat)
        let (lo, hi) := around v.natAbs
        faithful 4 x (decide (v < 0)) lo hi (-prec)

/-- The quadrant of a positive dyadic and its remainder by pi / 2 in fixed point. The quotient is found with pi to `prec`
bits, which leaves far more bits than R112 needs for every FP32 argument, since those are below 2^128. -/
def reduceTrig (m : Nat) (e : Int) : Nat × Nat :=
  let half := piFix / 2
  let v := (toFix false m e).toNat
  (v / half % 4, v % half)

/-- The sine of a positive dyadic: sign and magnitude; `shift` 1 gives the cosine. -/
def trig (shift m : Nat) (e : Int) : Bool × Nat :=
  let (q, r) := reduceTrig m e
  let q := (q + shift) % 4
  (decide (2 ≤ q), if q % 2 = 0 then sinFix r else cosFix r)

/-- FSIN (R112). -/
def fsin (x : Word) : Nat :=
  match fdec f32 x.toNat with
  | .nan | .inf _ => f32.nan
  | .fin s m e =>
    if m = 0 then signed f32 s 0
    else
      let (neg, a) := trig 0 m e
      let (lo, hi) := around a
      faithful 5 x (neg != s) lo hi (-prec)

/-- FCOS (R112). -/
def fcos (x : Word) : Nat :=
  match fdec f32 x.toNat with
  | .nan | .inf _ => f32.nan
  | .fin _ m e =>
    if m = 0 then 0x3F800000
    else
      let (neg, a) := trig 1 m e
      let (lo, hi) := around a
      faithful 6 x neg lo (min hi one) (-prec)

/-- 1 / (1 + 2^(-z)) in fixed point with an exponent, for fixed-point z: the fraction m and its exponent. -/
def sigmoid2 (z : Int) : Nat × Int :=
  let (a, n) := exp2Fix (-(z.natAbs : Int))
  -- a x 2^n = 2^(-|z|), at most 1
  let t := if -1000 < n then a / 2 ^ (-n).toNat else 0
  if 0 ≤ z then (one * one / (one + t), 0) else (a * one / (one + t), n)

/-- FTANH (R112): (1 - 2^(-2 log2(e) |x|)) / (1 + the same). -/
def ftanh (x : Word) : Nat :=
  match fdec f32 x.toNat with
  | .nan => f32.nan
  | .inf s => signed f32 s 0x3F800000
  | .fin s m e =>
    if m = 0 then signed f32 s 0
    else
      let v := if 9 < (Nat.log2 m : Int) + e then (1024 * one : Nat) else (toFix false m e).toNat
      let (a, n) := exp2Fix (-((2 * v * one / ln2Fix : Nat) : Int))
      let t := if -1000 < n then a / 2 ^ (-n).toNat else 0
      let (lo, hi) := around ((one - t) * one / (one + t))
      faithful 7 x s lo (min hi one) (-prec)

/-- y x sigmoid(z) for y = m x 2^e of sign s and fixed-point z of the same sign, as a faithful result. -/
def timesSigmoid (fn : Nat) (x : Word) (s : Bool) (m : Nat) (e : Int) (z : Int) : Nat :=
  let (a, n) := sigmoid2 (z * one / ln2Fix)
  let (lo, hi) := around a
  faithful fn x s (m * lo) (m * (if n = 0 then min hi one else hi)) (e + n - prec)

/-- A fixed-point argument of the sigmoid, kept within what any FP32 result can tell apart. -/
def clampArg (z : Int) : Int := satInt z (-(2048 * one : Nat)) (2048 * one : Nat)

/-- SiLU (R304): y / (1 + e^(-y)). -/
def siluOp (x : Word) : Nat :=
  match fdec f32 x.toNat with
  | .nan => f32.nan
  | .inf s => if s then 2 ^ 31 else infCode f32
  | .fin s m e =>
    if m = 0 then signed f32 s 0 else timesSigmoid 9 x s m e (clampArg (toFix s m e))

/-- GELU (R304): y/2 x (1 + tanh(u)) = y x sigmoid(2u), with u = sqrt(2/pi) (y + 0.044715 y^3). -/
def geluOp (x : Word) : Nat :=
  match fdec f32 x.toNat with
  | .nan => f32.nan
  | .inf s => if s then 2 ^ 31 else infCode f32
  | .fin s m e =>
    if m = 0 then signed f32 s 0
    else
      let y := clampArg (toFix s m e)
      let root := isqrt (2 * one * one / piFix * one)
      let cube := y * y / one * y / one * 44715 / 1000000
      timesSigmoid 8 x s m e (clampArg (2 * ((y + cube) * root / one)))

end Sys2Proof.Machine
end

