-- ==== Sys2Proof/Machine/FloatArith.lean ====
section
/-! DEFINITION. Floating-point arithmetic, special functions and conversions (R98 to R116). -/

namespace Sys2Proof.Machine

/-- A word from the code of a result. -/
def code32 (n : Nat) : Word := BitVec.ofNat 32 n
/-- A paired operation: the same on the `.lo` and the `.hi` halves (R108). -/
def pairOp (op : Nat → Nat → Nat) (a b : Word) : Word :=
  ofHalves (op (loHalf a).toNat (loHalf b).toNat) (op (hiHalf a).toNat (hiHalf b).toNat)
/-- A paired fused operation with its accumulator (R108). -/
def pairAcc (op : Nat → Nat → Nat → Nat) (d a b : Word) : Word :=
  ofHalves (op (loHalf a).toNat (loHalf b).toNat (loHalf d).toNat) (op (hiHalf a).toNat (hiHalf b).toNat (hiHalf d).toNat)

/-- FORMAT_SLOT where no slot is involved (R100, R313). -/
def noSlotTrap : Trap := { cause := formatSlot, info0 := 0xFF }

/-- An instruction that reads or writes an FP16 or FP8 value: at a level below S2 it takes FORMAT_SLOT (R100). -/
def needsS2 (s : State) (g : Guard) (uses : Uses) (fn : Lane → Fibre → Fibre) : Out :=
  .next (s.runIssue (some g) false false uses (fun x s => if s.level = 2 then x.eachLane s fn else x.allTrap s noSlotTrap))
/-- A plain paired FP16 instruction. -/
def halfBinary (f : FmtA) (s : State) (op : Word → Word → Word) : Out :=
  needsS2 s f.g (usesA f 1 1 1) (fun _ x => x.setV f.d (op (x.val f.a) (x.val f.b)))

/-- A special function (R112): a long-latency producer. -/
def special (f : FmtU) (s : State) (fn : Word → Nat) : Out :=
  latent s f.g (usesU f 1 1) (fun x => x.entriesFrom f.d 1) (fun _ x => (x, [code32 (fn (x.val f.a))]))


/-- FADD (R102). -/
def execFadd (f : FmtA) (s : State) : Out :=
  binary f s (fun a b => code32 (faddOp f32 a.toNat b.toNat))

/-- FSUB (R102). -/
def execFsub (f : FmtA) (s : State) : Out :=
  binary f s (fun a b => code32 (fsubOp f32 a.toNat b.toNat))

/-- FMUL (R102). -/
def execFmul (f : FmtA) (s : State) : Out :=
  binary f s (fun a b => code32 (fmulOp f32 a.toNat b.toNat))

/-- FFMA (R102): vd is an accumulator. -/
def execFfma (f : FmtA) (s : State) : Out :=
  accumulate f s (fun d a b => code32 (ffmaOp f32 a.toNat b.toNat d.toNat))

/-- FFMS (R102): vd is an accumulator. -/
def execFfms (f : FmtA) (s : State) : Out :=
  accumulate f s (fun d a b => code32 (ffmsOp f32 a.toNat b.toNat d.toNat))

/-- FFNMA (R102): vd is an accumulator. -/
def execFfnma (f : FmtA) (s : State) : Out :=
  accumulate f s (fun d a b => code32 (ffnmaOp f32 a.toNat b.toNat d.toNat))

/-- FMIN (R103). -/
def execFmin (f : FmtA) (s : State) : Out :=
  binary f s (fun a b => code32 (fminmax f32 false a.toNat b.toNat))

/-- FMAX (R103). -/
def execFmax (f : FmtA) (s : State) : Out :=
  binary f s (fun a b => code32 (fminmax f32 true a.toNat b.toNat))

/-- FSCALE (R102): vb is an integer. -/
def execFscale (f : FmtA) (s : State) : Out :=
  binary f s (fun a b => code32 (fscaleOp a.toNat b.toInt))

/-- FABS (R104). -/
def execFabs (f : FmtU) (s : State) : Out :=
  unary f s (fun a => code32 (fabsOp a.toNat))

/-- FNEG (R104). -/
def execFneg (f : FmtU) (s : State) : Out :=
  unary f s (fun a => code32 (fnegOp a.toNat))

/-- FCLASS (R106). -/
def execFclass (f : FmtU) (s : State) : Out :=
  unary f s (fun a => code32 (fclassOp a.toNat))

/-- FCMP (R105). -/
def execFcmp (f : FmtPF) (s : State) : Out :=
  plain s f.g { src := [vop f.a f.fa, vop f.b f.fb] } (fun _ x => x.setPred f.pd (fltCompare f32 f.cc (x.val f.a).toNat (x.val f.b).toNat))

/-- FROUND (R107): under RSR it consumes one generator step. -/
def execFround (g : Guard) (d a : Reg) (fa : Bool) (mode : RMode) (s : State) : Out :=
  plain s g { src := [vop a fa], dst := [vop d] } fun _ x =>
    let y := x.setV d (code32 (froundOp mode x.gen (x.val a).toNat))
    if mode = .rsr then { y with gen := genStep x.gen } else y

/-- FADD.h2 (R108). -/
def execFaddH2 (f : FmtA) (s : State) : Out :=
  halfBinary f s (pairOp (faddOp f16))

/-- FMUL.h2 (R108). -/
def execFmulH2 (f : FmtA) (s : State) : Out :=
  halfBinary f s (pairOp (fmulOp f16))

/-- FMIN.h2 (R108). -/
def execFminH2 (f : FmtA) (s : State) : Out :=
  halfBinary f s (pairOp (fminmax f16 false))

/-- FMAX.h2 (R108). -/
def execFmaxH2 (f : FmtA) (s : State) : Out :=
  halfBinary f s (pairOp (fminmax f16 true))

/-- FFMA.h2 (R108): vd is an accumulator. -/
def execFfmaH2 (f : FmtA) (s : State) : Out :=
  needsS2 s f.g (usesAcc f) (fun _ x => x.setV f.d (pairAcc (ffmaOp f16) (x.val f.d) (x.val f.a) (x.val f.b)))

/-- FADD.b2 (R108). -/
def execFaddB2 (f : FmtA) (s : State) : Out :=
  binary f s (pairOp (faddOp bf16))

/-- FMUL.b2 (R108). -/
def execFmulB2 (f : FmtA) (s : State) : Out :=
  binary f s (pairOp (fmulOp bf16))

/-- FMIN.b2 (R108). -/
def execFminB2 (f : FmtA) (s : State) : Out :=
  binary f s (pairOp (fminmax bf16 false))

/-- FMAX.b2 (R108). -/
def execFmaxB2 (f : FmtA) (s : State) : Out :=
  binary f s (pairOp (fminmax bf16 true))

/-- FFMA.b2 (R108): vd is an accumulator. -/
def execFfmaB2 (f : FmtA) (s : State) : Out :=
  accumulate f s (pairAcc (ffmaOp bf16))

/-- The compare of both halves into pd and pd + 1; a pd of 7 discards both (R109). -/
def pairCompare (fm : Fmt) (f : FmtPF) (x : Fibre) : Fibre :=
  if f.pd.val = 7 then x
  else
    (x.setPred f.pd (fltCompare fm f.cc (loHalf (x.val f.a)).toNat (loHalf (x.val f.b)).toNat)).setPred (f.pd + 1)
      (fltCompare fm f.cc (hiHalf (x.val f.a)).toNat (hiHalf (x.val f.b)).toNat)

/-- FCMP.h2 (R109). -/
def execFcmpH2 (f : FmtPF) (s : State) : Out :=
  needsS2 s f.g { src := [vop f.a f.fa, vop f.b f.fb] } (fun _ x => pairCompare f16 f x)

/-- FCMP.b2 (R109). -/
def execFcmpB2 (f : FmtPF) (s : State) : Out :=
  plain s f.g { src := [vop f.a f.fa, vop f.b f.fb] } (fun _ x => pairCompare bf16 f x)

/-- FDOT2.b2 (R110): vd is an FP32 accumulator. -/
def execFdot2B2 (f : FmtA) (s : State) : Out :=
  accumulate f s (fun d a b => code32 (fdot2Op d a b))

/-- FRCP (R112, R113). -/
def execFrcp (f : FmtU) (s : State) : Out :=
  special f s frcp

/-- FRSQ (R112, R113). -/
def execFrsq (f : FmtU) (s : State) : Out :=
  special f s frsq

/-- FSQRT (R112, R113). -/
def execFsqrt (f : FmtU) (s : State) : Out :=
  special f s fsqrt

/-- FEX2 (R112, R113). -/
def execFex2 (f : FmtU) (s : State) : Out :=
  special f s fex2

/-- FLG2 (R112, R113). -/
def execFlg2 (f : FmtU) (s : State) : Out :=
  special f s flg2

/-- FSIN (R112, R113). -/
def execFsin (f : FmtU) (s : State) : Out :=
  special f s fsin

/-- FCOS (R112, R113). -/
def execFcos (f : FmtU) (s : State) : Out :=
  special f s fcos

/-- FTANH (R112, R113). -/
def execFtanh (f : FmtU) (s : State) : Out :=
  special f s ftanh

/-- Is a type an FP16 or FP8 type (R100)? -/
def lowType : CvtType → Bool
  | .f16 | .e4 | .e5 => true
  | _ => false

/-- Write the result of a conversion: a 64-bit type to a pair (R31). -/
def setConverted (dst : CvtType) (d : Reg) (r : Nat) (x : Fibre) : Fibre :=
  if dst.is64 then x.setV64 d (BitVec.ofNat 64 r) else x.setV d (BitVec.ofNat 32 r)
/-- The entries that a type's value takes. -/
def typeCount (t : CvtType) : Nat := if t.is64 then 2 else 1
/-- The source bits of a conversion. -/
def sourceBits (src : CvtType) (a : Reg) (x : Fibre) : Nat :=
  if src.is64 then (x.val64 a).toNat else (x.val a).toNat

/-- CVT (R114): RNE, saturation off. -/
def execCvt (g : Guard) (d a : Reg) (fa : Bool) (dst src : CvtType) (s : State) : Out :=
  let fn := fun (_ : Lane) (x : Fibre) => setConverted dst d (convert dst src .rne false 0 (sourceBits src a x)) x
  let uses : Uses := { src := [vop a fa], dst := [vop d] }
  if lowType dst || lowType src then needsS2 s g uses fn else plain s g uses fn

/-- The packed pair of CVTPK (R115). -/
def packPair (sel : PackSel) (a b : Word) : Word :=
  let cv (f : Fmt) (x : Word) := fround f .rne false 0 (fdec f32 x.toNat)
  match sel with
  | .f16 => ofHalves (cv f16 a) (cv f16 b)
  | .bf16 => ofHalves (cv bf16 a) (cv bf16 b)
  | .e4 => code32 (cv e4m3 a + 256 * cv e4m3 b)
  | .e5 => code32 (cv e5m2 a + 256 * cv e5m2 b)

/-- CVTPK (R115). -/
def execCvtpk (g : Guard) (d a : Reg) (fa : Bool) (sel : PackSel) (s : State) : Out :=
  let fn := fun (_ : Lane) (x : Fibre) => x.setV d (packPair sel (x.valAt a 0) (x.valAt a 1))
  let uses : Uses := { src := [vop a fa 2], dst := [vop d] }
  if sel = .bf16 then plain s g uses fn else needsS2 s g uses fn

/-- CVTX (R116): with S = 1 the slot is checked first (R100, R292), and gives mode and saturation. -/
def execCvtx (g : Guard) (d a : Reg) (fa : Bool) (dst src : CvtType) (mode : RMode) (sat useSlot : Bool) (slot : Fin 8) (s : State) : Out :=
  let uses : Uses := { src := [vop a fa (typeCount src)], dst := [vop d false (typeCount dst)] }
  .next (s.runIssue (some g) false false uses (fun x s =>
    let sl := ((s.launch? x.key.lid).map (·.slot slot.val)).getD 0
    let mode := if useSlot then slotMode sl else mode
    let sat := if useSlot then slotSat sl else sat
    if useSlot && !slotUsable s.level sl then x.allTrap s { cause := formatSlot, info0 := BitVec.ofNat 32 slot.val }
    else if s.level ≠ 2 ∧ (lowType dst || lowType src) then x.allTrap s noSlotTrap
    else x.eachLane s (fun _ y =>
      let z := setConverted dst d (convert dst src mode sat y.gen (sourceBits src a y)) y
      if mode = .rsr then { z with gen := genStep y.gen } else z)))

/-- FFMA4 (R111): vd is not read; under RSR each element consumes one step, `.lo` first. -/
def execFfma4 (f : FmtA) (c : Reg) (fc : Bool) (mode : RMode) (ty : Ffma4Type) (np nc : Bool) (s : State) : Out :=
  let uses : Uses := { src := [vop f.a f.fa, vop f.b f.fb, vop c fc], dst := [vop f.d] }
  let steps := if mode = .rsr then (if ty = .f32 then 1 else 2) else 0
  let half := fun (fm : Fmt) (x : Fibre) =>
    let (a, b, c) := (x.val f.a, x.val f.b, x.val c)
    ofHalves (ffma4Op fm mode np nc x.gen (loHalf a).toNat (loHalf b).toNat (loHalf c).toNat)
      (ffma4Op fm mode np nc (if mode = .rsr then genStep x.gen else x.gen) (hiHalf a).toNat (hiHalf b).toNat (hiHalf c).toNat)
  let fn := fun (_ : Lane) (x : Fibre) =>
    let r := match ty with
      | .f32 => code32 (ffma4Op f32 mode np nc x.gen (x.val f.a).toNat (x.val f.b).toNat (x.val c).toNat)
      | .h2 => half f16 x
      | .b2 => half bf16 x
    { x.setV f.d r with gen := genSteps steps x.gen }
  if ty = .h2 then needsS2 s f.g uses fn else plain s f.g uses fn

end Sys2Proof.Machine
end

