-- ==== Sys2Proof/Machine/CrossLane.lean ====
section
/-! DEFINITION. Cross-lane instructions (R154 to R163). -/

namespace Sys2Proof.Machine

/-- The participating set as a lane mask (R154). -/
def lanesMask (l : List Lane) : DWord := BitVec.ofNat 64 (maskOf l)

/-- A long-latency instruction whose result for each fibre of P follows from all of P (R155). -/
def across (s : State) (g : Guard) (uses : Uses) (dst : Fibre → List Nat) (fn : Ctx → State → Lane → Fibre → List Word) : Out :=
  .next (s.runIssue (some g) false false uses (fun x s => x.produce s dst (fun l f => (f, fn x s l f))))

/-- The two words of a mask. -/
def maskWords (x : DWord) : List Word := [lo32 x, hi32 x]

/-! ## Shuffles (R156) -/

/-- A shuffle: the value of the source lane when it is in P, else the fibre's own. -/
def shuffle (f : FmtA) (s : State) (source : (width lane d : Nat) → Option Nat) : Out :=
  across s f.g (usesA f 1 1 1) (fun y => y.entriesFrom f.d 1) (fun x s l y =>
    match source (s.widthOf x.key) l (y.val f.b).toNat with
    | some t => [if x.active.contains t then (x.fibre t).val f.a else y.val f.a]
    | none => [y.val f.a])

/-- SHFL.idx. -/
def execShflIdx (f : FmtA) (s : State) : Out := shuffle f s (fun w _ d => some (d % w))
/-- SHFL.up. -/
def execShflUp (f : FmtA) (s : State) : Out := shuffle f s (fun _ l d => if d ≤ l then some (l - d) else none)
/-- SHFL.down. -/
def execShflDown (f : FmtA) (s : State) : Out := shuffle f s (fun w l d => if l + d < w then some (l + d) else none)
/-- SHFL.xor. -/
def execShflXor (f : FmtA) (s : State) : Out := shuffle f s (fun w l d => some (l ^^^ (d % w)))

/-! ## Votes, ballots, matches and election (R157 to R160) -/

/-- The result of a vote over P. -/
def voteResult (mode : VoteMode) (l : List Bool) : Bool :=
  match mode with
  | .all => l.all id
  | .any => l.any id
  | .same => l.all id || l.all (!·)
  | .odd => l.countP id % 2 == 1

/-- VOTE (R157). -/
def execVote (g : Guard) (pd : Pred) (mode : VoteMode) (ps : Pred) (s : State) : Out :=
  .next (s.runIssue (some g) false false {} (fun x s =>
    x.eachLane s (fun _ f => f.setPred pd (voteResult mode (x.fibres.map (fun e => e.2.pred ps))))))

/-- BALLOT (R158). -/
def execBallot (g : Guard) (d : Reg) (ps : Pred) (s : State) : Out :=
  .next (s.runIssue (some g) false false { dst := [vop d false 2] } (fun x s =>
    x.eachLane s (fun _ f => f.setV64 d (lanesMask ((x.fibres.filter (fun e => e.2.pred ps)).map (·.1))))))

/-- MATCH (R159). -/
def execMatchLanes (f : FmtU) (s : State) : Out :=
  across s f.g (usesU f 2 1) (fun y => y.entriesFrom f.d 2) (fun x _ _ y =>
    maskWords (lanesMask ((x.fibres.filter (fun e => e.2.val f.a == y.val f.a)).map (·.1))))

/-- ELECT (R160). -/
def execElect (g : Guard) (pd : Pred) (d : Reg) (s : State) : Out :=
  .next (s.runIssue (some g) false false { dst := [vop d] } (fun x s =>
    let e := (leastOf x.active).getD 0
    x.eachLane s (fun l f => (f.setPred pd (l == e)).setV d (BitVec.ofNat 32 e))))

/-! ## Reductions and scans (R161, R162) -/

/-- Identity(op, type). -/
def redIdentity (op : RedOp) (ty : RedType) : Word :=
  match op, ty with
  | .min, .s32 => 0x7FFFFFFF
  | .min, .n32 => 0xFFFFFFFF
  | .min, .f32 => 0x7F800000
  | .max, .s32 => 0x80000000
  | .max, .f32 => 0xFF800000
  | .and, _ => 0xFFFFFFFF
  | _, _ => 0

/-- One step of a combination that goes left to right. -/
def redStep (op : RedOp) (ty : RedType) (a b : Word) : Word :=
  match op with
  | .add => a + b
  | .and => a &&& b
  | .or => a ||| b
  | .xor => a ^^^ b
  | .min => (match ty with
    | .s32 => if b.toInt < a.toInt then b else a
    | .f32 => code32 (fminmax f32 false a.toNat b.toNat)
    | _ => if b.toNat < a.toNat then b else a)
  | .max => (match ty with
    | .s32 => if a.toInt < b.toInt then b else a
    | .f32 => code32 (fminmax f32 true a.toNat b.toNat)
    | _ => if a.toNat < b.toNat then b else a)

/-- Combine(Y) (R162). A floating minimum or maximum of one value gives a NaN in its canonical form too (R36). -/
def combine (op : RedOp) (ty : RedType) (mode : RMode) (y : List Word) : Word :=
  match y with
  | [] => redIdentity op ty
  | a :: l =>
    if op = .add ∧ ty = .f32 then
      code32 (fround f32 mode false 0 (fsum (decide (mode = .rdn)) (y.map (fun v => fdec f32 v.toNat))))
    else if ty = .f32 then l.foldl (redStep op ty) (redStep op ty a a)
    else l.foldl (redStep op ty) a

/-- REDUX (R162). -/
def execRedux (f : FmtU) (op : RedOp) (ty : RedType) (mode : RMode) (s : State) : Out :=
  across s f.g (usesU f 1 1) (fun y => y.entriesFrom f.d 1) (fun x _ _ _ =>
    [combine op ty mode (x.fibres.map (fun e => e.2.val f.a))])

/-- SCAN (R162). -/
def execScan (f : FmtU) (op : RedOp) (ty : RedType) (mode : RMode) (ex : Bool) (s : State) : Out :=
  across s f.g (usesU f 1 1) (fun y => y.entriesFrom f.d 1) (fun x _ l _ =>
    [combine op ty mode ((x.fibres.filter (fun e => if ex then decide (e.1 < l) else decide (e.1 ≤ l))).map (fun e => e.2.val f.a))])

/-! ## READLANE (R163) -/

/-- What READLANE reads: the source lane's entry once s_b is full and says which lane that is, and s_b. -/
def readlaneUses (s : State) (d a sb : Reg) (fa fb : Bool) : Uses :=
  let va : Operand := match s.issue.bind (fun i => (s.warp? i.key).map (fun w => (s.widthOf i.key, w))) with
    | some (n, w) => if (w.s sb).full then { reg := a.val, bit := fa, lane := some ((w.sval sb).toNat % n) }
        else { reg := a.val, count := 0 }
    | none => { reg := a.val, count := 0 }
  { src := [va, sop sb fb], dst := [vop d] }

/-- READLANE: the source fibre need not be in P, and its entry is waited for or trapped on by every fibre of P (R19). -/
def execReadlane (g : Guard) (d a sb : Reg) (fa fb : Bool) (s : State) : Out :=
  .next (s.runIssue (some g) false false (readlaneUses s d a sb fa fb) (fun x s =>
    x.produce s (fun y => y.entriesFrom d 1) (fun _ y =>
      (y, [match x.w.fibre? ((x.w.sval sb).toNat % s.widthOf x.key) with
        | none => 0
        | some z => z.val a]))))

end Sys2Proof.Machine
end

