-- ==== Sys2Proof/Machine/Names.lean ====
section
/-! DEFINITION. The NAME instructions (R383). -/

namespace Sys2Proof.Machine

/-- The name in s registers sb to sb + 2. -/
def Warp.nameAt (w : Warp) (sb : Reg) : Name := ⟨w.svalAt sb 0, w.svalAt sb 1, w.svalAt sb 2⟩

/-- The lifetime of an interest. -/
def lifetimeOf (own launch : Nat) : Nat :=
  let l := if own ≠ 0 then own else if launch ≠ 0 then launch else 10000
  min l 1000000

/-- A NAME instruction: once per issue, after the fence and the checks; its effect waits in the gate (R329). It depends on effects
on its tile that the gate holds. -/
def Ctx.nameAct (x : Ctx) (s : State) (ts : List Nat) (check : Except Trap Bool) (a : NameAct) : Act :=
  if x.active.isEmpty then .next s
  else if x.w.spec.isSome || x.w.holdsTile ts then .wait s []
  else match check with
    | .error t => x.allTrap s t
    | .ok false => .wait s []
    | .ok true => s.compared x (fun s => .next (s.holdEffect x (.name a)))

/-- An event of a tile, as a check that may wait. -/
def Allow.check (a : Allow) (t : Nat) : Except Trap Bool :=
  match a with
  | .yes => .ok true
  | .wait => .ok false
  | .trap => .error (tileStateTrap t)

/-- The tile as it is sent (R377). -/
def State.namedTile (s : State) (k : WarpKey) (t : Tile) : NamedTile :=
  let h := s.tileShape k t
  ⟨BitVec.ofNat 32 (t.ctl.toNat / 8 % 2 ^ 16 * 8), h.slot &&& 0xC0FFF, imgBytes t.image 0 h.imageSize⟩

/-- The effect of a NAME instruction of a warp as it leaves the gate. PUB: the read of the tile is issued and completed as the hub
takes the image. GET: a fill is issued, and the interest goes to the package's own hub. DROP: the tile's local face goes, and its
fill ends unfinished. -/
def State.applyName (s : State) (k : WarpKey) (a : NameAct) : State :=
  match a with
  | .pub t n => s.onTile n (s.namedTile k (((s.warp? k).map (·.tile t)).getD {})) true
  | .get t n life lane =>
    (s.modWarp k (fun w => w.setTile t { (w.tile t).fillIssue with lane := lane })).onInterest n (.consumer k t) life
  | .retire n => s.onRetire n
  | .drop t =>
    let f := Face.consumer k t
    if s.router.pit.any (fun e => e.2.any (fun q => q.1 == f)) then
      (s.modRouter (fun r => r.dropFaces (· == f))).modWarp k (fun w => w.setTile t (w.tile t).fillEnded)
    else s

/-- NAME.PUB. -/
def execNamePub (g : Guard) (t : TileReg) (sb : Reg) (fb : Bool) (s : State) : Out :=
  .next (s.runIssue (some g) true false { src := [sop sb fb 4], tiles := [t.val] } (fun x s =>
    x.nameAct s [t.val] (do
        s.checkSlots x [t.val]
        (x.w.tile t.val).readAllow.check t.val) (.pub t.val (x.w.nameAt sb))))

/-- NAME.GET: the lifetime of the interest is the instruction's own, else the launch's. -/
def execNameGet (g : Guard) (t : TileReg) (sb : Reg) (fb : Bool) (s : State) : Out :=
  .next (s.runIssue (some g) true false { src := [sop sb fb 4], tiles := [t.val] } (fun x s =>
    let own := ((s.launch? x.key.lid).map (·.record.lifetime)).getD 0
    x.nameAct s [t.val] (do
        s.checkSlots x [t.val]
        (x.w.tile t.val).fillAllow.check t.val)
      (.get t.val (x.w.nameAt sb) (lifetimeOf (x.w.svalAt sb 3).toNat own) x.lead)))

/-- NAME.RETIRE. -/
def execNameRetire (g : Guard) (sb : Reg) (fb : Bool) (s : State) : Out :=
  .next (s.runIssue (some g) true false { src := [sop sb fb 4] } (fun x s => x.nameAct s [] (.ok true) (.retire (x.w.nameAt sb))))

/-- NAME.DROP. -/
def execNameDrop (g : Guard) (t : TileReg) (s : State) : Out :=
  .next (s.runIssue (some g) true false { tiles := [t.val] } (fun x s => x.nameAct s [t.val] (.ok true) (.drop t.val)))

end Sys2Proof.Machine
end

