-- ==== Sys2Proof/Machine/Complete.lean ====
section
/-! DEFINITION. How outstanding items complete: loads, atomics and their halves, and requests to other packages with their
responses, faults and timeouts (R18, R129, R256, R257, R370 to R373). -/

namespace Sys2Proof.Machine

/-! ## Results -/

/-- The register words of a loaded value (R129). -/
def LoadConv.toWords (c : LoadConv) (v : Nat) : List Word :=
  match c with
  | .zext => [BitVec.ofNat 32 v]
  | .sext8 => [(BitVec.ofNat 8 v).signExtend 32]
  | .sext16 => [(BitVec.ofNat 16 v).signExtend 32]
  | .words n => (List.range n).map (fun i => BitVec.ofNat 32 (v / 2 ^ (32 * i)))

/-- Write entries of a lane as the completion of an issue (R18, R330). -/
def State.fill (s : State) (k : WarpKey) (num : Nat) (l : Lane) (dst : List Nat) (ws : List Word) : State :=
  s.modWarp k (·.complete num l (·.fillEntries (dst.zip ws)))

/-- Take an item off its warp's list. -/
def State.dropItem (s : State) (k : WarpKey) (p : Pend) : State :=
  s.modWarp k (fun w => { w with pend := w.pend.erase p })
/-- Replace an item. -/
def State.setItem (s : State) (k : WarpKey) (p q : Pend) : State :=
  s.modWarp k (fun w => { w with pend := w.pend.replace p q })

/-- The entries of a lane of an atomic. -/
def dstFor (dst : List (Lane × List Nat)) (l : Lane) : List Nat := ((dst.find? (fun e => e.1 == l)).map (·.2)).getD []

/-- The old value of a fibre's whole element comes back: its entries are written, and the success predicate of ATOMCAS. -/
def State.atomBack (s : State) (k : WarpKey) (num : Nat) (u : AtomUnit) (dst : List Nat) (pred : Option Nat) (v : Nat) : State :=
  let s := s.fill k num u.lane dst [BitVec.ofNat 32 v, BitVec.ofNat 32 (v / 2 ^ 32)]
  match pred, u.upd with
  | some p, .cas _ e _ =>
    s.modWarp k (·.complete num u.lane (fun f => f.setPred (Fin.ofNat 8 p) (v == e.toNat % 2 ^ (8 * u.size))))
  | _, _ => s

/-- The old value of one unit is known. A straddling element is back when both of its halves are (R256). -/
def State.unitBack (s : State) (k : WarpKey) (num : Nat) (u : AtomUnit) (dst : List (Lane × List Nat)) (pred : Option Nat) (v : Nat) :
    State :=
  let ds := dstFor dst u.lane
  if !u.straddles then s.atomBack k num u ds pred v
  else match u.other with
    | some o => s.atomBack k num u ds pred (if u.part = 0 then v + o * 65536 else o + v * 65536)
    | none => s.modWarp k (fun w => { w with pend := w.pend.map (fun q =>
        if q.num ≠ num then q
        else match q.kind with
          | .atom us d p => { q with kind := .atom (us.map (fun x =>
              if x.lane = u.lane ∧ x.part ≠ u.part then { x with other := some v } else x)) d p }
          | _ => q) })

/-! ## Requests to other packages (R370 to R372) -/

/-- The flow of a core to a package. -/
def State.flow (s : State) (c p : Nat) : Flow := (kget? s.flows (c, p)).getD {}
def State.setFlow (s : State) (c p : Nat) (f : Flow) : State := { s with flows := kput s.flows (c, p) f }

/-- Send one request for a unit of an item; answers its sequence number. -/
def State.request (s : State) (k : WarpKey) (num : Nat) (lane : Lane) (part pa : Nat) (ask : PeerAsk)
    (cmd : Option Nat := none) (page : Option (Nat × Nat) := none) : State × Nat :=
  let c := s.coreNo k
  let p := packageOf pa
  let f := s.flow c p
  let o : PeerOut := { seq := f.seq, key := k, num := num, lane := lane, part := part, kind := ask.kind, pa := pa, epoch := f.epoch,
                       cmd := cmd, page := page }
  ((s.setFlow c p { f with seq := (f.seq + 1) % 65536, open_ := f.open_ ++ [o] }).send (.request p c f.seq f.epoch ask), f.seq)

/-- What a unit of an atomic asks of its target; a reduction asks for no value. `more`: another unit of its run follows (R232). -/
def AtomUnit.ask (u : AtomUnit) (pa : Nat) (returns more : Bool) : PeerAsk :=
  match u.upd with
  | .op op ty x => ⟨if returns then 2 else 3, localOf pa, op, ty, bytesOf u.size x.toNat, more⟩
  | .cas _ e n => ⟨4, localOf pa, .exch, .b64, bytesOf u.size e.toNat ++ bytesOf u.size n.toNat, more⟩

/-- Take a request off the outstanding ones of a flow. -/
def State.takeRequest (s : State) (c p seq : Nat) (epoch : Bool) : Option (State × PeerOut) :=
  let f := s.flow c p
  (f.open_.find? (fun o => o.seq == seq && o.epoch == epoch)).map fun o =>
    (s.setFlow c p { f with open_ := f.open_.erase o }, o)

/-- Is this the unit that a request asked for? -/
def PeerOut.isUnit (o : PeerOut) (u : AtomUnit) : Bool := u.lane % 64 == o.lane % 64 && u.part == o.part
/-- The item that a request belongs to: that of a fibre that has quit bears a lane number above 63. -/
def State.itemOf (s : State) (o : PeerOut) : Option Pend :=
  (s.warp? o.key).bind (fun w => w.pend.find? (fun p => p.num == o.num && (match p.stage, p.kind with
    | .remote ss, .atom us _ _ => ss.contains o.seq && us.any o.isUnit
    | .remote ss, _ => ss.contains o.seq && p.lane % 64 == o.lane % 64
    | _, _ => false)))

/-- The stage of an item without one of its requests. -/
def PendStage.without (st : PendStage) (seq : Nat) : PendStage :=
  match st with
  | .remote l => .remote (l.erase seq)
  | st => st

/-- A unit's request is over: the item goes on with the units that remain. -/
def State.unitOver (s : State) (k : WarpKey) (p : Pend) (us : List AtomUnit) (u : AtomUnit) (d : List (Lane × List Nat))
    (pred : Option Nat) (seq : Nat) : State :=
  let rest := us.erase u
  if rest.isEmpty then s.dropItem k p else s.setItem k p { p with kind := .atom rest d pred, stage := p.stage.without seq }

/-- A response arrives (R371): the access, or the unit of it, is complete. LAUNCH hands its record to the front end. -/
def State.respond (s : State) (o : PeerOut) (data : List Byte) : State :=
  match o.cmd, s.itemOf o with
  | some n, _ => s.answerCommand o n (fun x =>
      if o.kind = 0 then { x with answers := x.answers ++ [(o.pa, data)] } else { x with written := o.part :: x.written })
  | none, none => s
  | none, some p =>
    let s : State := match p.kind with
      | .load _ _ conv dst => (s.dropItem o.key p).fill o.key p.num p.lane dst (conv.toWords (ofBytes data))
      | .atom (us : List AtomUnit) d pred => (match us.find? o.isUnit with
        | some u => (s.unitOver o.key p us u d pred o.seq).unitBack o.key p.num u d pred (ofBytes data)
        | none => s)
      | .launch _ dst =>
        let r := s.append data (((s.launch? o.key.lid).map (fun (l : Launch) => l.root)).getD 0)
        (r.1.dropItem o.key p).fill o.key p.num p.lane dst [r.2]
      | _ => s.dropItem o.key p
    s.reapGroup (s.groupKey o.key)

/-! ## Peer faults (R373) -/

/-- The operand-log entry of a lane of an item. -/
def Pend.logEntry (p : Pend) (l : Lane) : LogEntry :=
  { w0 := p.words.1, w1 := p.words.2, pc := p.pc, hdr := p.hdr, mask := [l], addrs := [(l, BitVec.ofNat 64 (p.addrOf l))]
    data := (p.ops.filter (fun e => e.1 == l)).map (fun e => (e.1, e.2.2)), dst := [(l, p.dstOf l)], num := p.num }
/-- Two entries of one issue as one. -/
def LogEntry.join (a b : LogEntry) : LogEntry :=
  { a with mask := sortBy id (a.mask ++ b.mask), addrs := a.addrs ++ b.addrs, data := a.data ++ b.data, dst := a.dst ++ b.dst }
/-- The lane takes its place in the warp's operand log, in the entry of its issue when that has one; answers the index, or none
where the lane's other half holds the place already. -/
def Warp.holdLane (w : Warp) (p : Pend) (l : Lane) : Warp × Option Nat :=
  match w.log.find? (fun e => e.2.num == p.num && e.2.tag == 0) with
  | some (i, e) => if e.mask.contains l then (w, none) else ({ w with log := nput w.log i (e.join (p.logEntry l)) }, some i)
  | none => ({ w with log := nput w.log (freeLog w.log) (p.logEntry l) }, some (freeLog w.log))

/-- An item once one unit of an access of the issue of `p` has failed: the item loses that unit alone, and no unit of the fibre
writes its destination any more (R256). An item that is no atomic goes whole. -/
def Pend.afterFailure (q p : Pend) (l : Lane) (part : Nat) : Option Pend :=
  if q.num ≠ p.num then some q
  else match q.kind with
    | .atom us d pr =>
      let us := us.filter (fun u => !(u.lane == l && u.part == part))
      if us.isEmpty then none else some { q with kind := .atom us (d.map (fun e => if e.1 = l then (l, []) else e)) pr }
    | _ => if q = p then none else some q

/-- An access of a lane to another package fails, or the unit `part` of its pair: REMOTE_FAULT with the target's cause and reason,
or REMOTE_TIMEOUT. A fibre that has quit takes no cause. -/
def State.peerFails (s : State) (k : WarpKey) (p : Pend) (l : Lane) (part : Nat) (timeout : Bool) (code reason : Nat)
    (indet : Bool) : State :=
  match s.warp? k with
  | none => s
  | some w =>
    let w := if (w.fibre? l).isNone then w else
      let r := w.holdLane p l
      let a := p.addrOf l
      r.1.defer p.num l
        { cause := if timeout then remoteTimeout else remoteFault, reason := reason, indet := indet, info0 := BitVec.ofNat 32 a
          info1 := BitVec.ofNat 32 (a / 2 ^ 32 % 2 ^ 24 + code % 256 * 2 ^ 24), source := .access (p.dstOf l), log := r.2 }
    let w := { w with pend := w.pend.filterMap (fun q => q.afterFailure p l part) }
    (s.setWarp k w).reapGroup (s.groupKey k)

/-- A request of the hub's own, for a completion word, fails (R180). -/
def State.hubFails (s : State) (o : PeerOut) (cause reason : Nat) : State := s.wordNotice o.key.lid o.pa cause reason

/-- A fault response or a timeout of a request. -/
def State.requestFails (s : State) (c : Nat) (o : PeerOut) (timeout : Bool) (code reason : Nat) : State :=
  if let some n := o.cmd then s.answerCommand o n (fun x => { x with refused := some o.pa })
  else if c = hubCore then s.hubFails o (if timeout then remoteTimeout.toNat else remoteFault.toNat) reason
  else match s.itemOf o with
    | some p => s.peerFails o.key p (match p.kind with
      | .atom us _ _ => ((us.find? o.isUnit).map (fun (u : AtomUnit) => u.lane)).getD o.lane
      | _ => p.lane) o.part timeout code reason (timeout && o.kind != 0)
    | none => s

end Sys2Proof.Machine
end

