-- ==== Sys2Proof/Machine/Peer.lean ====
section
/-! DEFINITION. Accesses from other packages and their flows (R370 to R374), responses at the initiator, the peer-fault ring
(R374, R375), and domain barriers (R376). -/

namespace Sys2Proof.Machine

/-! ## The peer-fault ring (R374, R375) -/

def PeerLog.enabled (p : PeerLog) : Bool := p.ctl.getLsbD 5
def PeerLog.size (p : PeerLog) : Nat := 2 ^ (p.ctl.toNat % 32)
def PeerLog.base (p : PeerLog) : Nat := p.hi.toNat * 2 ^ 32 + p.lo.toNat

/-- A write to PFLOG_CTL. -/
def State.writePflogCtl (s : State) (v : Word) : State :=
  s.modRouter fun r =>
    let p := r.plog
    let new := v &&& 0x3F
    { r with plog :=
      if p.enabled then { p with ctl := (p.ctl &&& 0x1F) ||| (new &&& 0x20) }
      else if !v.getLsbD 5 then { p with ctl := new }
      else
        let n := v.toNat % 32
        if 4 ≤ n ∧ n ≤ 12 ∧ p.base / 2 ^ 43 = 0 ∧ s.backs p.base (32 * 2 ^ n) = true then { p with ctl := new, prod := p.cons }
        else { p with ctl := new &&& 0x1F, cfgerr := true } }

/-- PFLOG_CTL_WRITE (R375). -/
def execPflogCtlWrite (v : BitVec 32) (s : State) : Out := .next (s.writePflogCtl v)

/-- KIND of a record: a compare and swap is an atomic. -/
def peerKind (kind : Nat) : Nat := if kind = 4 then 2 else kind

/-- Post a peer-fault record, or lose it. -/
def State.logPeerFault (s : State) (src kind addr cause reason : Nat) : State :=
  let p := s.router.plog
  if !p.enabled || decide (p.size ≤ (p.prod - p.cons).toNat) then s.modRouter (fun r => { r with plog := { p with lost := true } })
  else
    let b := packN 1 [cause, reason] ++ bytesOf 2 (src % 2 ^ 13) ++ bytesOf 4 (peerKind kind) ++ bytesOf 8 (addr % 2 ^ 43) ++ bytesOf 16 0
    let s := s.writeOutside (p.base + 32 * (p.prod.toNat % p.size)) b
    ((s.modRouter (fun r => { r with plog := { p with prod := p.prod + 1 } })).send (.vector 1)).send .management

/-! ## At the target -/

/-- The cause and reason with which the target refuses an access, if it does. -/
def State.refuses (s : State) (ask : PeerAsk) (size : Nat) : Option (Nat × Nat) :=
  if s.level ≠ 2 then some (0x11, 4)
  else match s.region ask.addr with
    | .near _ | .far => if ask.kind != 1 && s.poisoned ask.addr size then some (0x14, 0) else none
    | _ => some (0x11, 4)

/-- The update that an atomic asks for. -/
def PeerAsk.update (ask : PeerAsk) (size : Nat) : Update :=
  if ask.kind = 4 then .cas .b64 (BitVec.ofNat 64 (ofBytes (ask.data.take size))) (BitVec.ofNat 64 (ofBytes (ask.data.drop size)))
  else .op ask.op ask.ty (BitVec.ofNat 64 (ofBytes ask.data))

/-- Bytes that the access reads or writes. -/
def PeerAsk.size (ask : PeerAsk) : Nat := if ask.kind = 4 then ask.data.length / 2 else ask.data.length

/-- Perform one request as a member of O and answer it, or refuse it (R370, R373). -/
def State.performPeer (s : State) (src core seq : Nat) (epoch : Bool) (ask : PeerAsk) : State :=
  let z := ask.size
  match s.refuses ask z with
  | some (c, r) => (s.logPeerFault src ask.kind ask.addr c r).sendTo src (.faultResponse src core seq epoch c r)
  | none =>
    let old := memBytes s.mem ask.addr z
    let s := match ask.kind with
      | 0 => s.leaseOutside (lineOf ask.addr)
      | 1 => s.writeOutside ask.addr ask.data
      | _ => match (ask.update z).apply z (ofBytes old) with
        | some x => (s.stampOutside (lineOf ask.addr)).writeAtomic ask.addr (bytesOf z x)
        | none => s
    s.sendTo src (.response src core seq epoch (if ask.kind = 1 ∨ ask.kind = 3 then [] else old))

/-- The run that a flow performs next: the requests from a sequence number on, through the first that ends its run, if all of them
have arrived (R232, R371). -/
def InFlow.run (f : InFlow) : (fuel : Nat) → (seq : Nat) → Option (List (Nat × PeerAsk))
  | 0, _ => none
  | n + 1, seq => match nget? f.held seq with
    | none => none
    | some ask => if ask.more then (f.run n ((seq + 1) % 65536)).map ((seq, ask) :: ·) else some [(seq, ask)]
/-- Perform the requests that a flow holds and that are next, a run of an aggregated atomic as one (R232). -/
def State.drainFlow (src core : Nat) : (fuel : Nat) → State → State
  | 0, s => s
  | n + 1, s =>
    let f := (kget? s.inflows (src, core)).getD {}
    match f.run (f.held.length + 1) f.next with
    | none => s
    | some run =>
      let f' := { f with next := (f.next + run.length) % 65536, held := run.foldl (fun h e => ndel h e.1) f.held }
      State.drainFlow src core n (run.foldl (fun s e => s.performPeer src core e.1 f.epoch e.2)
        { s with inflows := kput s.inflows (src, core) f' })

/-- A request arrives. One of an epoch that its flow has closed is discarded; its lateness is the event's to say, since one bit
does not tell it from the epoch after next (DEDUCED, log entry 129). A request of the other epoch opens the flow again, which
discards what the old epoch held; the flow is performed in ascending sequence (R371, R372). -/
def State.peerArrives (s : State) (src core seq : Nat) (epoch late : Bool) (ask : PeerAsk) : State :=
  let f := (kget? s.inflows (src, core)).getD {}
  if late then s
  else
    let f := if f.epoch = epoch then f else { next := 0, epoch := epoch, held := [] }
    if 4096 ≤ (seq + 65536 - f.next) % 65536 then { s with inflows := kput s.inflows (src, core) f }
    else
      let f := { f with held := nput f.held seq ask }
      State.drainFlow src core (f.held.length + 1) { s with inflows := kput s.inflows (src, core) f }

/-- PEER_REQUEST (R370 to R373). -/
def execPeerRequest (src core seq kind addr : Nat) (epoch late more : Bool) (op : AtomOp) (ty : AtomType)
    (data : List (BitVec 8)) (s : State) : Out :=
  .next (if s.grid.down then s else s.peerArrives src core (seq % 65536) epoch late ⟨kind, localOf addr, op, ty, data, more⟩)

/-! ## At the initiator -/

/-- PEER_RESPONSE (R371): a response that matches no outstanding request is discarded. -/
def execPeerResponse (core dest seq : Nat) (epoch : Bool) (data : List (BitVec 8)) (s : State) : Out :=
  .next (match s.takeRequest core dest seq epoch with
    | some (s, o) => s.respond o data
    | none => s)

/-- PEER_FAULT_RESPONSE (R373). -/
def execPeerFaultResponse (core dest seq : Nat) (epoch : Bool) (cause reason : Nat) (s : State) : Out :=
  .next (match s.takeRequest core dest seq epoch with
    | some (s, o) => s.requestFails core o false cause reason
    | none => s)

/-- PEER_TIMEOUT (R372): the flow closes; its next request opens it again with the epoch inverted. -/
def execPeerTimeout (core dest seq : Nat) (s : State) : Out :=
  .next (match (s.flow core dest).open_.find? (fun o => o.seq == seq) with
    | none => s
    | some o =>
      match s.takeRequest core dest seq o.epoch with
      | none => s
      | some (s, o) =>
        let f := s.flow core dest
        let s := if o.epoch = f.epoch then s.setFlow core dest { f with seq := 0, epoch := !f.epoch } else s
        s.requestFails core o true 0 0)

/-! ## Domain barriers (R376) -/

/-- The domain barrier of a launch. -/
def domainBar (lid : Word) (index : Nat) : BarKey := ⟨lid, .domain, 0, index⟩

/-- DOMAIN_BARRIER_ARRIVAL: the root takes what another package tells it: an arrival (kind 0) with the member's ordering count
(R244), a BAR.DROP (1), or a BAR.INIT to the value (2). -/
def execDomainBarrierArrival (lid : BitVec 32) (index kind value : Nat) (s : State) : Out :=
  let b := domainBar lid (index % 4)
  .next (match s.launch? lid with
    | some l =>
      if l.domainRoot ≠ s.domid ∨ l.domainPackages = 1 then s
      else match kind with
        | 0 => s.countArrival b value
        | 1 => (s.setBarrier b { s.barrier b with e := (s.barrier b).e - 1 }).completeIfDue b
        | _ => (s.setBarrier b { s.barrier b with e := value }).completeIfDue b
    | none => s)

/-- DOMAIN_BARRIER_COMPLETION: the members of this package leave their waits, lifted to the greatest ordering count that any
member held (R244). -/
def execDomainBarrierCompletion (lid : BitVec 32) (index order : Nat) (s : State) : Out :=
  let b := domainBar lid (index % 4)
  .next (match s.launch? lid with
    | some l =>
      if l.domainRoot = s.domid ∨ l.domainPackages = 1 then s
      else (s.setBarrier b { s.barrier b with top := max (s.barrier b).top order }).turnBarrier b
    | none => s)

/-! ## Small registers of the router block (R375) -/

/-- Drop every stored tile that is not pinned. -/
def State.flushTiles (s : State) : State := s.modRouter (fun r => { r with store := r.store.filter (fun t => !t.pins.isEmpty) })
/-- TSCTL_FLUSH (R375). -/
def execTsctlFlush (s : State) : Out := .next s.flushTiles
/-- NAMEREF_READ (R375). -/
def execNamerefRead (s : State) : Out := .next (s.regClear 0x1000C)

end Sys2Proof.Machine
end

