-- ==== Sys2Proof/Machine/SysInstrs.lean ====
section
/-! DEFINITION. PWR.HINT (R338) and LANECHK (R339). -/

namespace Sys2Proof.Machine

/-- Set a launch's hint on a core: automatic is the value an unlisted launch has. -/
def CoreState.setHint (k : CoreState) (lid : Word) (h : PwrHint) : CoreState :=
  { k with hints := (if h = .automatic then kdel k.hints lid else kput k.hints lid h) }

/-- PWR.HINT: the core's hint for the launch, set as it leaves the gate (R329). -/
def execPwrHint (g : Guard) (h : PwrHint) (s : State) : Out :=
  .next (s.runIssue (some g) false false {} (fun x s =>
    .next (if x.active.isEmpty then s else s.holdEffect x (.hint h))))

/-- LANECHK: the failing lanes and banks of the selected groups are reported and retire, one after another (R335). The scan pauses
while stage 1 or a later one is engaged (R345). The retirements leave the core at once, so that no rollback goes back past them
(DEDUCED, log entry 128). -/
def execLanechk (g : Guard) (d : Reg) (groups : BitVec 4) (s : State) : Out :=
  .next (s.runIssue (some g) false false { dst := [vop d false 2] } (fun x s =>
    if x.active.isEmpty then .next s
    else if s.isDet x.key then x.allTrap s { cause := detUnsupported }
    else if x.w.spec.isSome || decide (1 ≤ s.grid.stage) then .wait s []
    else
      let c := s.coreNo x.key
      let lanes := s.failedLanes c groups.toNat 0
      let banks := s.failedLanes c groups.toNat 1
      let s := lanes.foldl (fun s u => s.retire c 0 u) s
      let s := banks.foldl (fun s u => s.retire c 1 u) s
      match x.produce s (fun f => f.entriesFrom d 2)
          (fun _ f => (f, [BitVec.ofNat 32 (maskOf lanes), BitVec.ofNat 32 (maskOf banks)])) with
      | .done s moved completed _ => .done s moved completed true
      | a => a))

end Sys2Proof.Machine
end

