-- ==== Sys2Proof/Machine/Repair.lean ====
section
/-! DEFINITION. Repair: droop reports (R331), self-test and retirement (R335, R336), units that fail without retiring (R211),
evacuation (R210), bank roles (R200, R201), and the registers of fault injection (R337). -/

namespace Sys2Proof.Machine

/-- The records of operand-log entries that a rollback discards are withdrawn: the access is made again (R330). -/
def State.withdraw (s : State) (g : GroupKey) (rs : List (Nat × Word)) : State :=
  (s.orphan rs).modGroup g (fun q => { q with records := q.records.filter (fun r => !rs.contains r) })

/-- The issue boundary to which a suspect issue takes its warp back: the last one before it (R331). A report names no issue of which
something has left the gate (R331: nothing issued in the span has left the core); for one that it names nevertheless the log holds no
record any more, and the warp is left as it is. -/
def State.boundaryOf (s : State) (k : WarpKey) (n : Nat) : Option Undo :=
  (s.warp? k).bind (fun w => w.undo.find? (fun u => u.num == n))
/-- The commands of issues from `n` on that the gate still holds are taken back, the latest first. -/
def State.unstartSince (s : State) (k : WarpKey) (w : Warp) (n : Nat) : State :=
  w.pend.reverse.foldl (fun s p => match p.kind with
    | .held (.command m found) => if p.since n then s.unstart k m found else s
    | _ => s) s
/-- One warp rolls back to the issue boundary before issue `n` (R330). -/
def State.rollBackWarp (s : State) (k : WarpKey) (n : Nat) : State :=
  match s.boundaryOf k n, (s.warp? k).bind (fun w => (s.unstartSince k w n).warp? k), s.warp? k with
  | some _, some w, some old =>
    let s := s.unstartSince k old n
    let gone := (w.log.filter (fun e => decide (n ≤ e.2.num) && e.2.tag != 0)).map (fun e => (e.2.die, e.2.tag))
    (s.setWarp k (w.rollback n)).withdraw (s.groupKey k) gone
  | _, _, _ => s
/-- The turns of the deterministic launches after a report. At the earliest boundary to which a warp of a core went back, that warp
held the turn, and what passed it since is undone; but a warp that cannot have the turn now does not get it back (R151, R330, R331:
DEDUCED, log entry 149). -/
def State.turnsBack (s : State) (ks : List (Nat × WarpKey)) : State :=
  (sortBy (fun e => e.1) ks).reverse.foldl (fun s e => if s.able e.2 then s.holdTurn e.2 else s) s

/-- DROOP_REPORT (R331): each warp of the cluster with a suspect issue rolls back to its last issue boundary before the first
one. A command that has not completed has entered no write since its last stop point, so it runs again from there. -/
def execDroopReport (cluster : Nat) (suspect : List (BitVec 32 × Nat × Nat)) (s : State) : Out :=
  let mine := (suspect.map (fun e => ((⟨e.1, e.2.1⟩ : WarpKey), e.2.2))).filter (fun e => (s.coreOf e.1).map clusterOf == some cluster)
  let back := mine.filterMap (fun e => (s.boundaryOf e.1 e.2).map (fun u => (u.step, e.1)))
  .next ((mine.foldl (fun s e => s.rollBackWarp e.1 e.2) s).turnsBack back)

/-! ## Self-test and retirement -/

/-- SRAM banks that a self-test finds failing. -/
def State.failedSram (s : State) (c groups : Nat) : List Nat :=
  (List.range 32).filter (fun u => groups.testBit (4 + u) && !(s.core c).isRetired 2 u && s.failsCheck c 2 u)
/-- Register banks that a self-test finds failing: those of a lane group in retention stay in service (R351). -/
def State.failedBanks (s : State) (c groups : Nat) : List Nat :=
  (List.range 32).filter (fun u => groups.testBit (u / 8) && !(s.core c).isRetired 1 u && s.failsCheck c 1 u)
/-- SELF_TEST (R335): a test covers the lane groups of bits [3:0] and the SRAM banks of bits [35:4]; each unit that fails
retires, one after another. -/
def execSelfTest (core groups : Nat) (s : State) : Out :=
  .next (if (s.cluster (clusterOf core)).retained || s.grid.down then s
    else
      let units := (s.failedLanes core groups 0).map (fun u => (0, u)) ++ (s.failedBanks core groups).map (fun u => (1, u)) ++
        (s.failedSram core groups).map (fun u => (2, u))
      units.foldl (fun s e => s.retire core e.1 e.2) s)

/-- UNIT_RETIREMENT (R335, R336): a lane, register bank, SRAM bank or matrix column (kinds 0 to 3) of a core, or a slice or near
channel (4, 5) of die `core`, or a far channel (6). A slice or channel that cannot be spared does not retire. Units retire one at
a time: the one that has waited longest begins when none runs. -/
def execUnitRetirement (core kind unit : Nat) (s : State) : Out :=
  let t : Option TableId := match kind with
    | 4 => some (.slice (Fin.ofNat 4 core))
    | 5 => some (.channel (Fin.ofNat 4 core))
    | 6 => some .far
    | _ => none
  .next (State.nextRetirement (match t with
    | some t => if s.absorbs t unit then s.loseUnit t unit false else s
    | none => if kind < 4 ∧ unit < (if kind = 3 then 16 else 32) then s.retire core kind unit else s))

/-- Does a unit of a table hold the sector's line? -/
def State.holdsSector (s : State) (t : TableId) (u sector : Nat) : Bool :=
  (lineBlocks t).any (fun r => decide (r.1 ≤ sector / 4 / 4096 ∧ sector / 4 / 4096 < r.1 + r.2)) &&
  (s.bucket t (bucketOf (32 * sector))).home (sector / 4) == u
/-- UNIT_FAILED (R211): a unit that cannot be spared fails, with a notice; `sectors` are those of its sectors that it cannot
return when they are read. -/
def execUnitFailed (t : TableId) (unit : Nat) (sectors : List Nat) (s : State) : Out :=
  let s' := if s.absorbs t unit then s else s.loseUnit t unit false
  .next (if (s'.unitsFailed t).contains unit then
      (sectors.filter (s'.holdsSector t unit)).foldl (fun s a => s.poisonSector (32 * a)) s'
    else s')

/-- EVACUATION_LINE_COPY (R210): stage 1 of the throttle order pauses it (R209). -/
def execEvacuationLineCopy (t : TableId) (bad : Bool) (s : State) : Out :=
  .next (if 1 ≤ s.grid.stage ∨ s.grid.down then s else (s.copyLine t bad).nextRetirement)

/-! ## Bank roles -/

/-- The role of bank b after a write of the field `v`: 3 is never written, and a retired bank keeps its role. -/
def CoreState.writeRole (k : CoreState) (b v : Nat) : CoreState := if k.role b = 3 ∨ v = 3 then k else k.setRole b v
/-- A write to BANKROLE_LO or BANKROLE_HI: refused in full while a group is resident. A bank that leaves L1 is written back
and invalidated first. -/
def State.writeBankrole (s : State) (c : Nat) (high : Bool) (v : Word) : State :=
  if !(s.groupsOn c).isEmpty then s.modCore c (fun k => { k with refused := true })
  else s.modCore c fun k =>
    let k' := (List.range 16).foldl (fun k b => k.writeRole (if high then 16 + b else b) (v.toNat / 4 ^ b % 4)) k
    if (List.range 32).any (fun b => k.role b == 0 && k'.role b != 0) then { k' with l1 := [] } else k'
/-- BANKROLE_WRITE (R201). -/
def execBankroleWrite (core : Nat) (high : Bool) (v : BitVec 32) (s : State) : Out := .next (s.writeBankrole core high v)

/-! ## Fault injection (R337) -/

/-- A write to FICTL: arming with a reserved EVENT or a UNIT out of range sets ERR instead. -/
def Inject.writeCtl (i : Inject) (v : Word) : Inject :=
  let event := v.toNat / 2 ^ 4 % 16
  let unit := v.toNat / 2 ^ 8 % 2 ^ 8
  let bad := v.getLsbD 0 && !injectRange event unit
  { i with die := v.toNat / 2 ^ 16 % 4, unit := unit, event := event, err := (i.err && !v.getLsbD 2) || bad,
           fired := i.fired && !v.getLsbD 1, arm := v.getLsbD 0 && !bad }
/-- FICTL_WRITE. -/
def execFictlWrite (v : BitVec 32) (s : State) : Out := .next { s with inject := s.inject.writeCtl v }
/-- A write to another register of the block. -/
def Inject.write (i : Inject) (off : Nat) (v : Word) : Inject :=
  match off with
  | 0x00 => { i with lid := v } | 0x04 => { i with warp := v } | 0x08 => { i with cntLo := v } | 0x0C => { i with cntHi := v }
  | 0x10 => i.writeCtl v
  | _ => i

end Sys2Proof.Machine
end

