-- ==== Sys2Proof/Machine/Trust.lean ====
section
/-! DEFINITION. Bring-up and trust: module reset and service levels (R5, R212, R387), boot stages and measurement (R393),
attestation (R394) and the in-field test (R395). -/

namespace Sys2Proof.Machine

/-! ## Keys (R393) -/

/-- How a public key stands against the fuses: accepted, revoked, or unknown. -/
inductive KeyState where
  | accepted | revoked | unknown
  deriving DecidableEq, Repr

def keyState (key : List Byte) : KeyState :=
  let h := sha512 key
  let fuses := [(0 : Fin 4), 1, 2, 3].filter (fun i => Config.keyHash i == h)
  if fuses.any (fun i => !Config.keyRevoked i) then .accepted
  else if fuses.isEmpty then .unknown else .revoked
/-- Is a payload signed under an accepted key? -/
def signedOk (key sig payload : List Byte) : Bool := keyState key == .accepted && edVerify key (sha512 payload) sig

/-! ## Boot (R5, R387, R393) -/

/-- SVCSTAT takes an error, and vector 0 is raised. -/
def State.bootError (s : State) (code stage : Nat) : State := (s.modBoot (fun b => { b with err := code, errStage := stage })).send (.vector 0)
/-- The stage is extended before it runs, and then runs. -/
def State.runStage (s : State) (stage : Nat) (image : List Byte) : State :=
  s.modBoot (fun b => { b.extend stage (sha512 image) with ran := stage :: b.ran })
/-- A boot stage: 0 Maar firmware, 1 hub firmware, 2 die microcode, each signed; 3 the fuse and key-policy state and 4 the
special-function value set, which are only measured. After an error nothing more runs. -/
def State.bootStage (s : State) (stage : Nat) (key sig image : List Byte) (trained tested : Bool) : State :=
  if s.boot.err ≠ 0 ∨ s.boot.ran.contains stage = true ∨ 4 < stage then s
  else if 3 ≤ stage then s.runStage stage image
  else match keyState key with
    | .revoked => s.bootError 2 stage
    | .unknown => s.bootError 1 stage
    | .accepted =>
      if !edVerify key (sha512 image) sig then s.bootError 1 stage
      else
        let s := s.runStage stage image
        if !trained then s.bootError 3 stage else if !tested then s.bootError 4 stage else s
/-- BOOT_STAGE. -/
def execBootStage (stage : Nat) (key signature image : List (BitVec 8)) (trained tested : Bool) (s : State) : Out :=
  .next (s.bootStage stage key signature image trained tested)

/-- A level is reached: vector 0 is raised, and S1 begins with its channel table (R212). -/
def State.reach (s : State) (level : Nat) : State :=
  (if level = 1 then s.enterS1 else { s with level := level }).send (.vector 0)
/-- The next service level. From S1 the buckets of die 0 move first, and S2 is reported once all have reached their places. -/
def State.nextLevel (s : State) : State :=
  if s.boot.err ≠ 0 ∨ s.grid.down = true then s
  else match s.level with
    | 0 => if [0, 1, 2].all (fun k => s.boot.ran.contains k) then s.reach 1 else s
    | 1 =>
      if !s.movingToS2 then (if (s.evacuating (.channel 0)).isSome then s else s.startS2Move)
      else if (s.evacuating (.channel 0)).isSome then s
      else ({ s with movingToS2 := false } : State).reach 2
    | _ => s
/-- SERVICE_LEVEL_CHANGE. -/
def execServiceLevelChange (s : State) : Out := .next s.nextLevel

/-- A unit of the retirement map is out of service again. -/
def State.applyMap (s : State) (e : Nat × Nat × Bool) : State :=
  let (kind, place, failed) := e
  let t : Option TableId := match kind with
    | 4 => some (.slice (Fin.ofNat 4 (place / 96)))
    | 5 => some (.channel (Fin.ofNat 4 (place / 64)))
    | 6 => some .far
    | _ => none
  match t with
  | none => s.retireSteps (place / 32) kind (place % 32)
  | some t => if failed then s.addFailed t (place % unitCount t) else s.exclude t (place % unitCount t)
/-- Module reset at power-good: everything is as after reset but what outlives it: the package number, the Maar retirement map
with the units it names (R335), the fabric's routes, and drain flash. -/
def State.powerGood (s : State) : State :=
  let t := { State.reset with
    tick := s.tick, resetTick := s.tick, domid := s.domid, onModule := s.onModule, retirementMap := s.retirementMap, flash := s.flash, out := s.out
    router := { State.reset.router with unreached := s.router.unreached } }
  s.retirementMap.foldl (fun s e => s.applyMap e) t
/-- POWER_GOOD (R5). -/
def execPowerGood (s : State) : Out := .next s.powerGood

/-! ## Host measurements (R393) -/

/-- A write to MEXTCTL: GO extends MEAS6 or MEAS7 with MEXTBUF. -/
def State.writeMext (s : State) (v : Word) : State :=
  if v.getLsbD 0 then s.modBoot (fun b => b.extend (if v.getLsbD 1 then 7 else 6) (bytesOf 64 b.mextBuf.toNat)) else s
/-- MEAS_EXTEND. -/
def execMeasExtend (v : BitVec 32) (s : State) : Out := .next (s.writeMext v)

/-! ## Attestation (R394) -/

/-- The identity key's seed. -/
def identitySeed : List Byte :=
  (sha512 (Config.fusedSecret ++ [0x6e, 0x63, 0x34, 0x30, 0x2d, 0x69, 0x64, 0x65, 0x6e, 0x74, 0x69, 0x74, 0x79])).take 32
/-- The retirement map as bytes: kind, failed, and place. -/
def mapBytes (m : List (Nat × Nat × Bool)) : List Byte :=
  m.flatMap (fun e => bytesOf 1 e.1 ++ bytesOf 1 (fieldBit e.2.2 0) ++ bytesOf 4 e.2.1)
/-- The signed part of a quote. -/
def State.quoteBody (s : State) (nonce : List Byte) (sel : Nat) : List Byte :=
  bytesOf 4 0x00010000 ++ bytesOf 4 s.domid ++ bytesOf 8 Config.serial.toNat ++ edPublic identitySeed ++ padTo 32 (nonce.take 32) ++
  padTo 16 (bytesOf 1 s.level ++ bytesOf 1 sel) ++ sha512 (mapBytes s.retirementMap) ++
  (List.range 8).flatMap (fun k => if sel.testBit k then s.boot.measBytes k else List.replicate 64 0)
/-- A quote. -/
def State.quote (s : State) (nonce : List Byte) (sel : Nat) : List Byte :=
  let b := s.quoteBody nonce sel
  b ++ edSign identitySeed b

/-- ATCTL GO: the quote is built from the registers as they stand; a GO while BUSY is ignored. -/
def State.startQuote (s : State) : State :=
  if s.boot.atBusy then s
  else
    let q := s.quote (bytesOf 32 s.boot.atNonce.toNat) s.boot.atSel.toNat
    s.modBoot (fun b => { b with atBusy := true, building := q })
/-- QUOTE_REQUEST. -/
def execQuoteRequest (s : State) : Out := .next s.startQuote
/-- QUOTE_COMPLETE: the quote appears at QUOTE and BUSY clears. -/
def execQuoteComplete (s : State) : Out :=
  .next (if s.boot.atBusy then s.modBoot (fun b => { b with atBusy := false, quote := b.building, building := [] }) else s)
/-- MAAR_QUOTE_REQUEST: a request over the management path has its own buffer. -/
def execMaarQuoteRequest (nonce : List (BitVec 8)) (sel : BitVec 8) (s : State) : Out :=
  .next (s.send (.quote (s.quote nonce sel.toNat)))

/-! ## In-field test (R395) -/

/-- The test package in memory, if memory backs it. -/
def State.testPackage (s : State) : Option (List Byte) :=
  let a := s.boot.iftBase.toNat
  let n := s.boot.iftLen.toNat
  if 96 ≤ n ∧ s.backs a n = true ∧ (s.poison.any (fun e => decide (32 * e.1 < a + n ∧ a < 32 * e.1 + 32))) = false then
    some (memBytes s.mem a n) else none
/-- The groups of the tested cluster leave. -/
def State.emptyCluster (s : State) (i : Nat) : State :=
  ((List.range 32).flatMap (fun c => s.groupsOn (32 * i + c))).foldl (fun s g => s.requestSwap g) s
/-- GO: the package is checked, the distributor stops placing on the cluster, and its groups are swapped out. A stage of the throttle
order that is engaged aborts the test at once (R345). -/
def State.startTest (s : State) : State :=
  let fail := fun (st : Nat) => (s.modBoot (fun b => { b with iftStat := st })).send (.vector 8)
  if 11 < s.boot.iftCluster then fail 6
  else match s.testPackage with
    | none => fail 4
    | some b =>
      let payload := b.drop 96
      if !signedOk (b.take 32) ((b.drop 32).take 64) payload then fail 4
      else
        let i := s.boot.testCluster
        let t := (((s.modCluster i (fun c => { c with testing := true })).modBoot
          (fun b => { b with iftStat := 1, iftDigest := sha512 payload })).send (.vector 8)).emptyCluster i
        if 1 ≤ s.grid.stage then t.abortTest else t
/-- A write to IFTCTL, ignored while a test runs. -/
def State.writeIftctl (s : State) (v : Word) : State :=
  if s.boot.iftStat = 1 then s
  else
    let s := s.modBoot (fun b => { b with iftDie := v.toNat / 2 ^ 16 % 4, iftCluster := v.toNat % 16 })
    if v.getLsbD 31 then s.startTest else s
/-- IFT_GO. -/
def execIftGo (v : BitVec 32) (s : State) : Out := .next (s.writeIftctl v)

/-- The payload has run: each lane, register bank, SRAM bank or column that failed retires. A unit is (core in the cluster, kind,
number). -/
def State.finishTest (s : State) (failed : List (Nat × Nat × Nat)) (aborted : Bool) : State :=
  let i := s.boot.testCluster
  if s.boot.iftStat ≠ 1 then s
  else if aborted then (if 1 ≤ s.grid.stage then s.applyTest.endTest 5 else s)
  else if !((List.range 32).all (fun c => (s.groupsOn (32 * i + c)).isEmpty)) then s
  else
    let bad := failed.filter (fun e => decide (e.1 < 32 ∧ e.2.1 < 4 ∧ e.2.2 < (if e.2.1 = 3 then 16 else 32)))
    let s := bad.foldl (fun s e => s.retire (32 * i + e.1) e.2.1 e.2.2) s.applyTest
    s.endTest (if bad.isEmpty then 2 else 3)
/-- IFT_COMPLETE. -/
def execIftComplete (failed : List (Nat × Nat × Nat)) (aborted : Bool) (s : State) : Out := .next (s.finishTest failed aborted)

end Sys2Proof.Machine
end

