-- ==== Sys2Proof/Machine/Registers.lean ====
section
/-! DEFINITION. Writing the control region (R385): every register's write, block by block, the access rules, and the host's
windows (R386). -/

namespace Sys2Proof.Machine

/-! ## The launch block (R181, R193, R214, R243, R322, R349, R376) -/

/-- A write to a register of a launch queue but QCTL. -/
def LaunchQueue.write (q : LaunchQueue) (off : Nat) (v : Word) : LaunchQueue :=
  match off with
  | 0x00 => if q.enabled then q else { q with baseLo := v }
  | 0x04 => if q.enabled then q else { q with baseHi := v }
  | 0x0C => ({ q with prod := v } : LaunchQueue).checkOverrun
  | 0x14 => { q with cfgerr := q.cfgerr && !v.getLsbD 2, overrun := q.overrun && !v.getLsbD 1 }
  | 0x18 => if q.enabled then q else { q with rootLo := v &&& 0xFFFFE000 }
  | 0x1C => if q.enabled then q else { q with rootHi := v &&& 0x7FF }
  | _ => q
/-- A write to a register of the front end that holds a value only. `pooled`: some image lies in the save pool. -/
def FrontEnd.write (f : FrontEnd) (pooled : Bool) (off : Nat) (v : Word) : FrontEnd :=
  match off with
  | 0x400 => { f with elid := v }
  | 0x404 => { f with etgt := v.toNat % 8 }
  | 0x408 => { f with detLid := v, detCnt := kdel f.detCnt v }
  | 0x410 => if pooled then f else { f with spoolLo := v &&& 0xFFFF0000, poolFull := false }
  | 0x414 => if pooled then f else { f with spoolHi := v &&& 0x7FF, poolFull := false }
  | 0x418 => if pooled then f else { f with spoolSz := v.toNat % 2 ^ 20, poolFull := false }
  | 0x420 => { f with swapLid := v }
  | 0x428 => { f with violLid := v, violCnt := kdel f.violCnt v }
  | 0x430 => { f with dsetLid := v }
  | 0x434 => { f with dsetN := v &&& 0x1FFF1FFF }
  | _ => f
/-- SWAPREQ_G: the group that SWAPREQ_LID and the written value name leaves, with its gang. -/
def State.writeSwapreq (s : State) (v : Word) : State :=
  let g : GroupKey := ⟨s.front.swapLid, v.toNat⟩
  if (s.groupCore g).isSome then s.requestSwap g else s
/-- A write to a register of the launch block. -/
def State.writeLaunch (s : State) (off : Nat) (v : Word) : State :=
  if off < 0x400 then
    (if off % 0x40 = 0x08 then s.writeQctl (off / 0x40) v
     else s.setQueue (off / 0x40) ((s.queue (off / 0x40)).write (off % 0x40) v))
  else if off = 0x424 then s.writeSwapreq v
  else { s with front := s.front.write (!s.pooled.isEmpty) off v }

/-! ## The other package blocks (R220, R375, R386, R393 to R395) -/

/-- A write to a register of the translation block. -/
def State.writeTlbi (s : State) (off : Nat) (v : Word) : State :=
  if off = 0x0C then s.writeTlbiCtl v else { s with tlbi := s.tlbi.write off v }

/-- Put a word into a little-endian buffer of n bits, at byte offset i. -/
def putWord {n : Nat} (b : BitVec n) (i : Nat) (v : Word) : BitVec n :=
  (b &&& ~~~(BitVec.ofNat n (0xFFFFFFFF * 2 ^ (8 * i)))) ||| BitVec.ofNat n (v.toNat * 2 ^ (8 * i))
/-- A write to a 32-bit register of the boot and trust block that starts nothing. -/
def Boot.write (b : Boot) (off : Nat) (v : Word) : Boot :=
  if 0x300 ≤ off ∧ off < 0x340 then { b with mextBuf := putWord b.mextBuf (off - 0x300) v }
  else if 0x400 ≤ off ∧ off < 0x420 then { b with atNonce := putWord b.atNonce (off - 0x400) v }
  else match off with
    | 0x420 => { b with atSel := BitVec.ofNat 8 v.toNat }
    | 0x808 => if b.iftStat = 1 then b else { b with iftLen := v }
    | _ => b
def State.writeBoot (s : State) (off : Nat) (v : Word) : State :=
  match off with
  | 0x340 => s.writeMext v
  | 0x424 => if v.getLsbD 0 then s.startQuote else s
  | 0x80C => s.writeIftctl v
  | off => s.modBoot (fun b => b.write off v)
/-- A write to a 64-bit register of the block; [35:0] of WINBASE are reserved. -/
def Boot.write64 (b : Boot) (off : Nat) (v : DWord) : Boot :=
  match off with
  | 0x080 => { b with winBase := BitVec.ofNat 64 (v.toNat / 2 ^ 36 * 2 ^ 36) }
  | 0x800 => if b.iftStat = 1 then b else { b with iftBase := v }
  | _ => b

/-- A write to a register of the peer-fault ring but PFLOG_CTL. -/
def PeerLog.write (p : PeerLog) (off : Nat) (v : Word) : PeerLog :=
  match off with
  | 0x20 => if p.enabled then p else { p with lo := v &&& 0xFFFFFFE0 }
  | 0x24 => if p.enabled then p else { p with hi := v }
  | 0x30 => { p with cons := v }
  | 0x34 => { p with lost := p.lost && !v.getLsbD 1, cfgerr := p.cfgerr && !v.getLsbD 0 }
  | _ => p
/-- A write to a field of a routing entry. -/
def Route.write (r : Route) (off : Nat) (v : Word) : Route :=
  match off with
  | 0 => { r with tensor := v } | 4 => { r with mask := v } | 8 => { r with value := v }
  | _ => { r with ctl := v &&& 0x80001FFF }
/-- A write to a register of the router block. -/
def State.writeRouter (s : State) (off : Nat) (v : Word) : State :=
  if 0x1000 ≤ off ∧ off < 0x2000 then
    let k := (off - 0x1000) / 16
    s.modRouter (fun r => { r with nrt := nsetD r.nrt {} k ((ngetD r.nrt {} k).write (off % 16) v) })
  else match off with
    | 0x004 => s.modRouter (fun r => { r with rtimeout := v.toNat % 2 ^ 16 })
    | 0x010 => if v.getLsbD 0 then s.flushTiles else s
    | 0x028 => s.writePflogCtl v
    | off => s.modRouter (fun r => { r with plog := r.plog.write off v })

/-! ## The die blocks (R200, R201, R317, R349, R353) -/

/-- A write to a register of a fault queue that holds a value only. -/
def FaultQueue.write (q : FaultQueue) (off : Nat) (v : Word) : FaultQueue :=
  match off with
  | 0x00 => if q.enabled then q else { q with baseLo := v &&& 0xFFFFFFC0 }
  | 0x04 => if q.enabled then q else { q with baseHi := v }
  | 0x10 => { q with cons := v }
  | 0x14 => { q with cfgerr := q.cfgerr && !v.getLsbD 0 }
  | 0x18 => { q with delay := v.toNat % 2 ^ 16 }
  | 0x1C => { q with rtag := v }
  | _ => q
/-- A write to a register of a die's fault queue; GO of FQRESP answers the record that FQRTAG names. -/
def State.writeFaultQueue (s : State) (d off : Nat) (v : Word) : State :=
  match off with
  | 0x08 => s.writeFqctl d v
  | 0x20 => if v.getLsbD 0 then s.answer d (s.die d).fq.rtag (v.toNat / 2 % 4) else s
  | off => s.modDie d (fun x => { x with fq := x.fq.write off v })
/-- A write to a register of a core: its bank roles, or REFUSED. -/
def State.writeCore (s : State) (c off : Nat) (v : Word) : State :=
  match off with
  | 0 => s.writeBankrole c false v
  | 4 => s.writeBankrole c true v
  | 8 => s.modCore c (fun k => { k with refused := k.refused && !v.getLsbD 0 })
  | _ => s
/-- A write to a register of a die's block. -/
def State.writeDie (s : State) (d off : Nat) (v : Word) : State :=
  if off < 0x24 then s.writeFaultQueue d off v
  else if 0x40000 ≤ off ∧ off < 0x40C00 then
    s.modCluster (12 * d + (off - 0x40000) / 0x100) (fun c => c.write (off % 0x100) v)
  else if 0x80000 ≤ off ∧ off < 0x81800 then s.writeCore (384 * d + (off - 0x80000) / 0x10) (off % 0x10) v
  else s

/-! ## Access rules (R385) -/

/-- A write to the 32-bit register at an offset of the control region; none defined there: ignored. -/
def State.regWrite (s : State) (off : Nat) (v : Word) : State :=
  if off < 0x1000 then s.writeLaunch off v
  else if off < 0x2000 then s.writeTlbi (off - 0x1000) v
  else if off < 0x3000 then s.writeGrid (off - 0x2000) v
  else if off < 0x4000 then { s with inject := s.inject.write (off - 0x3000) v }
  else if off < 0x5000 then { s with ck := s.ck.write (off - 0x4000) v }
  else if off < 0x6000 then s.writeBoot (off - 0x5000) v
  else if 0x10000 ≤ off ∧ off < 0x12000 then s.writeRouter (off - 0x10000) v
  else match dieBlock off with
    | some (d, o) => s.writeDie d o v
    | none => s
/-- A write to a 64-bit register. The tables are read-only. -/
def State.regWrite64 (s : State) (off : Nat) (v : DWord) : State :=
  if 0x4000 ≤ off ∧ off < 0x5000 then { s with ck := s.ck.write64 (off - 0x4000) v }
  else if 0x5000 ≤ off ∧ off < 0x6000 then s.modBoot (fun b => b.write64 (off - 0x5000) v)
  else s
/-- A 4-byte access: ignored when it falls on half of a 64-bit register. -/
def State.ctrlWrite4 (s : State) (off v : Nat) : State :=
  match s.reg64 (off / 8 * 8) with
  | some _ => s
  | none => s.regWrite off (BitVec.ofNat 32 v)
/-- An 8-byte access: one 64-bit register, or two 32-bit ones in ascending address. -/
def State.ctrlWrite8 (s : State) (off v : Nat) : State :=
  match s.reg64 off with
  | some _ => s.regWrite64 off (BitVec.ofNat 64 v)
  | none => (s.regWrite off (BitVec.ofNat 32 v)).regWrite (off + 4) (BitVec.ofNat 32 (v / 2 ^ 32))
/-- A write of n bytes to the control region. One of fewer than 4 bytes, or one that is not aligned, is ignored. -/
def State.ctrlWrite (s : State) (off n v : Nat) : State :=
  if n = 0 ∨ off % n ≠ 0 then s
  else if n = 4 then s.ctrlWrite4 off v
  else if n = 8 then s.ctrlWrite8 off v
  else if n = 16 then (s.ctrlWrite8 off v).ctrlWrite8 (off + 8) (v / 2 ^ 64)
  else s

/-- REGISTER_WRITE (R385): a 4-byte write, which is ignored where it is not aligned. -/
def execRegisterWrite (offset : Nat) (v : BitVec 32) (s : State) : Out := .next (s.ctrlWrite offset 4 v.toNat)

/-! ## The host's windows (R386) -/

/-- The size of an access is a power of two up to 16, and its offset is aligned to it. -/
def hostAligned (offset size : Nat) : Bool := [1, 2, 4, 8, 16].contains size && offset % size == 0
/-- A host store of n bytes to package memory is one member of O. -/
def State.hostStore (s : State) (a : Nat) (b : List Byte) : State := s.writeOutside a b
/-- An access to the control window: offsets 0 to 0x3FF_FFFF. -/
def State.hostControl (s : State) (off size : Nat) (store : Bool) (data : Nat) : State :=
  if 0x4000000 ≤ off then s
  else if store then s.ctrlWrite off size (data % 2 ^ (8 * size))
  else
    let r := s.ctrlRead off size
    r.1.send (.hostData (BitVec.ofNat 128 r.2))
/-- An access to the memory window, which maps package-local WINBASE + offset. The spec states no value for a read that meets
no memory or a poisoned sector: it is free. -/
def State.hostMemory (s : State) (off size : Nat) (store : Bool) (data : Nat) : State :=
  let a := s.boot.winBase.toNat + off
  if 2 ^ 36 ≤ off then s
  else if 0x70000000000 ≤ a ∧ a < 2 ^ 43 then
    (if store then s.ctrlWrite (ctrlOff a) size (data % 2 ^ (8 * size))
     else
      let r := s.ctrlRead (ctrlOff a) size
      r.1.send (.hostData (BitVec.ofNat 128 r.2)))
  else if hostAligned off size && s.backs a size then
    (if store then s.hostStore a (bytesOf size data)
     else if s.poisoned a size then s.send (.hostData (Config.hostOpen s.tick))
     else s.send (.hostData (BitVec.ofNat 128 (s.memVal a size))))
  else if store then s else s.send (.hostData (Config.hostOpen s.tick))
/-- A value with n bytes of it, from byte `off`, replaced. -/
def putBytes (old off n v : Nat) : Nat :=
  old % 2 ^ (8 * off) + v % 2 ^ (8 * n) * 2 ^ (8 * off) + old / 2 ^ (8 * (off + n)) * 2 ^ (8 * (off + n))
/-- The bytes of a value from byte `off`. -/
def getBytes (x off n : Nat) : Nat := x / 2 ^ (8 * off) % 2 ^ (8 * n)
/-- A write to the MSI-X window: an entry of the table; one that is no longer masked is not pending. -/
def HostPort.writeTable (h : HostPort) (off size v : Nat) : HostPort :=
  if 256 ≤ off then h
  else
    let i := off / 16
    let x := BitVec.ofNat 128 (putBytes (h.entry i).toNat (off % 16) size v % 2 ^ 97)
    { h with table := nput h.table i x
             pending := if x.getLsbD 96 then h.pending else h.pending &&& ~~~(BitVec.ofNat 16 (2 ^ i)) }
/-- A read of the MSI-X window: the table at 0, the pending bits at 0x8000. -/
def HostPort.readTable (h : HostPort) (off size : Nat) : Option Nat :=
  if off < 256 then some (getBytes (h.entry (off / 16)).toNat (off % 16) size)
  else if 0x8000 ≤ off ∧ off < 0x8008 then some (getBytes h.pending.toNat (off - 0x8000) size)
  else none
/-- The MSI-X window; where it holds nothing, a read has no value that the spec states. -/
def State.hostMsix (s : State) (off size : Nat) (store : Bool) (data : Nat) : State :=
  if !hostAligned off size then (if store then s else s.send (.hostData (Config.hostOpen s.tick)))
  else if store then { s with host := s.host.writeTable off size data }
  else s.send (.hostData (((s.host.readTable off size).map (BitVec.ofNat 128)).getD (Config.hostOpen s.tick)))
/-- The size of a window, and the low bits that its base register reads: 64 bits wide, and prefetchable or not. -/
def windowBar (i : Nat) : Nat × Nat :=
  match i with
  | 0 => (2 ^ 26, 4) | 1 => (2 ^ 36, 12) | _ => (2 ^ 16, 4)
/-- Configuration space: the base registers of the windows at 0x10, 0x18 and 0x20. -/
def State.hostConfig (s : State) (off size : Nat) (store : Bool) (data : Nat) : State :=
  let i := (off - 0x10) / 8
  let at_ := (off - 0x10) % 8
  let old := (s.host.bases.getD i 0).toNat
  if off < 0x10 ∨ 0x28 ≤ off ∨ 8 < at_ + size ∨ !hostAligned off size then
    (if store then s else s.send (.hostData (Config.hostOpen s.tick)))
  else if store then
    let v := putBytes old at_ size data / (windowBar i).1 * (windowBar i).1
    { s with host := { s.host with bases := s.host.bases.set i (BitVec.ofNat 64 v) } }
  else s.send (.hostData (BitVec.ofNat 128 (getBytes (old + (windowBar i).2) at_ size)))
/-- HOST_WINDOW_ACCESS (R386): window 0 is control, 1 memory, 2 MSI-X; 3 stands for the function's configuration space, where the
windows' base registers lie (PRESUMED, log entry 138). -/
def execHostWindowAccess (window offset size : Nat) (store : Bool) (data : BitVec 128) (s : State) : Out :=
  .next (
    if s.grid.down then s
    else match window with
      | 0 => s.hostControl offset size store data.toNat
      | 1 => s.hostMemory offset size store data.toNat
      | 2 => s.hostMsix offset size store data.toNat
      | _ => s.hostConfig offset size store data.toNat)

end Sys2Proof.Machine
end

