-- ==== Sys2Proof/Machine/Perform.lean ====
section
/-! DEFINITION. How outstanding items are performed: the memory order (R224 to R233), the store gate (R329), speculative loads
(R238, R239), deterministic atomics and reductions (R245, R246), poison (R334), and requests to other packages (R371). -/

namespace Sys2Proof.Machine

/-! ## Order (R224, R225, R249) -/

/-- The package that an item's target lies in; scratch is this package's. -/
def State.targetOf (s : State) (p : Pend) : Nat :=
  let at_ : Loc → Nat := fun l => match l with
    | .mem pa => packageOf pa
    | .scr _ _ => s.domid
  match p.kind with
  | .load l .. | .store l _ | .red l .. | .launch l _ => at_ l
  | .atom us _ _ => ((us.head?).map (fun u => at_ u.loc)).getD s.domid
  | _ => s.domid
/-- The items of a list before an item. -/
def itemsBefore (p : Pend) : List Pend → List Pend
  | [] => []
  | q :: l => if q = p then [] else q :: itemsBefore p l
/-- Does an item wait for an effect before it that the gate holds? What leaves the gate does so in order with the effects; an access
comes after a POP or STEAL before it, which may acquire (R187, R329). -/
def Warp.behindHeld (w : Warp) (p : Pend) : Bool :=
  (itemsBefore p w.pend).any (fun q => match q.kind with
    | .held (.deque a _) => a != .push || p.inGate
    | .held _ | .arrive .. => p.inGate
    | _ => false)
/-- Is an item a store to this package that an unresolved FENCE gates (R238)? -/
def State.isGatedStore (s : State) (p : Pend) : Bool :=
  p.spec && (match p.kind with
    | .store (.mem pa) _ => !s.isRemote (.mem pa)
    | _ => false)
/-- Does a gated store leave the gate in the step that resolves its FENCE? Nothing stands before it then but stores that do so too:
what was issued before the FENCE is performed, unless it is a deterministic atomic that its slice has only queued (R238). -/
def State.leavesAtResolve (s : State) (k : WarpKey) (w : Warp) (p : Pend) : Bool :=
  s.isGatedStore p && (itemsBefore p w.pend).all (fun q => (!q.isAccess && !q.inGate) || (if q.spec then s.isGatedStore q else match q.kind with
    | .arrive .. | .held _ => false
    | .atom _ dst _ => !s.isDet k || dst.isEmpty
    | _ => true))
/-- Must an item wait for an earlier one of its warp: an access of the same fibre, or of the same instruction, to the same
package? A speculative load passes the stores that leave the gate when its FENCE resolves; it is marked until they do, so that no
order shows (R238 to R240). -/
def State.waitsFor (s : State) (k : WarpKey) (w : Warp) (p q : Pend) : Bool :=
  q.isAccess && !q.stage.isSent && s.targetOf q == s.targetOf p &&
  (q.lanes.any p.lanes.contains || (q.num == p.num && q.stage != .queued)) &&
  !(match p.kind with
    | .load .. => p.spec && s.leavesAtResolve k w q
    | _ => false)

/-- Does a load wait for a gated store of its warp that writes some of its bytes (R329)? -/
def State.readsGated (s : State) (k : WarpKey) (w : Warp) (p q : Pend) : Bool :=
  match p.kind, q.kind with
  | .load a n _ _, .store b bytes => a.meets n b bytes.length && !(p.spec && s.leavesAtResolve k w q)
  | _, _ => false

/-- Under DET, accesses of a group's warps to its own scratch are performed as they were issued (R249). -/
def State.scratchTurn (s : State) (k : WarpKey) (p : Pend) : Bool :=
  let g := s.groupKey k
  !s.isDet k || !p.onScratch g ||
  (s.warpsOf g).all (fun m => ((s.warp? m).map (fun w => w.pend.all (fun q => !q.onScratch g || decide (p.seq ≤ q.seq)))).getD true)

/-- Does a speculative item wait for its FENCE (R238)? A load of package memory does not. -/
def State.fenceHeld (s : State) (p : Pend) : Bool :=
  p.spec && (match p.kind with
    | .load l .. => !s.isOwnMem l
    | .regs _ | .cacheOp => false
    | _ => true)

/-- May an access be performed now, as far as the items before it are concerned? -/
def State.ready (s : State) (k : WarpKey) (w : Warp) (p : Pend) : Bool :=
  let before := itemsBefore p w.pend
  p.stage == .waiting && !s.fenceHeld p && before.all (fun q => !s.waitsFor k w p q && !s.readsGated k w p q) && !w.behindHeld p &&
  s.scratchTurn k p

/-- Is the item a LAUNCH? Launches of a warp are handed over in their order (R185, R329). -/
def Pend.isLaunch (p : Pend) : Bool :=
  match p.kind with
  | .launch .. => true
  | _ => false
/-- Has the warp no access left before an item, but those that another package has still to acknowledge, where `acked` does not
ask for them? -/
def Warp.clearBefore (w : Warp) (p : Pend) (acked : Bool) : Bool :=
  (itemsBefore p w.pend).all (fun q => !q.isAccess || (!acked && q.stage.isSent)) && w.log.all (fun e => e.2.tag == 0 || decide (p.num < e.2.num))

/-! ## Other packages -/

/-- May a request be sent: is the package in reach, and has the flow room (R369, R371)? -/
def State.flowRoom (s : State) (k : WarpKey) (p n : Nat) : Bool := decide ((s.flow (s.coreNo k) p).open_.length + n ≤ 4096)

/-- The requests of an item: lane, part, address and what it asks. -/
def Pend.asks (p : Pend) : List (Lane × Nat × Nat × PeerAsk) :=
  match p.kind with
  | .load (.mem pa) n _ _ => [(p.lane, 0, pa, ⟨0, localOf pa, .exch, .b32, List.replicate n 0, false⟩)]
  | .launch (.mem pa) _ => [(p.lane, 0, pa, ⟨0, localOf pa, .exch, .b32, List.replicate 128 0, false⟩)]
  | .store (.mem pa) b => [(p.lane, 0, pa, ⟨1, localOf pa, .exch, .b32, b, false⟩)]
  | .atom us dst _ => us.filterMap (fun u => match u.loc with
    | .mem pa => some (u.lane, u.part, pa, u.ask pa (!dst.isEmpty) (us.getLast? != some u))
    | .scr _ _ => none)
  | _ => []
/-- Send the requests of an item, or fail its fibres where no package answers at the address (R369). -/
def State.sendItem (s : State) (k : WarpKey) (p : Pend) : State :=
  let d := s.targetOf p
  if !s.router.reaches d then p.asks.foldl (fun s a => s.peerFails k p a.1 a.2.1 false 0x11 4 false) s
  else if !s.flowRoom k d p.asks.length then s
  else
    let r := p.asks.foldl (fun (acc : State × List Nat) a =>
      let t := acc.1.request k p.num a.1 a.2.1 a.2.2.1 a.2.2.2
      (t.1, acc.2 ++ [t.2])) (s, [])
    (r.1.setItem k p { p with stage := .remote r.2 }).modWarp k (·.dropUndoTo p.num)

/-! ## Poison (R334) -/

/-- An item's read met a poisoned sector: its warp parks with a record, unless it waits on one already. -/
def State.parkItem (s : State) (k : WarpKey) (p : Pend) : State :=
  match s.warp? k with
  | none => s
  | some w =>
    if w.parked.isSome then s
    else
      let s := s.park k (s.poisonRecord k p.lanes (p.addrOf ((leastOf p.lanes).getD p.lane)) p.pc p.hdr)
      match (s.warp? k).bind (·.parked) with
      | some (d, t) => s.setItem k p { p with stage := .poisoned d t }
      | none => s

/-! ## Loads -/

/-- The bytes of a load with those of its warp's own gated stores before it (R238). -/
def overlayByte (p : Pend) (w : Warp) (pa : Nat) (b : Byte) : Byte :=
  (itemsBefore p w.pend).foldl (fun (b : Byte) q => match q.kind with
    | .store (.mem x) l => if q.spec && decide (x ≤ pa ∧ pa < x + l.length) then l.getD (pa - x) 0 else b
    | _ => b) b
/-- The value of a load: its bytes of memory, and for a speculative one those of its warp's gated stores. -/
def State.loadVal (s : State) (w : Warp) (p : Pend) (pa n : Nat) : Nat :=
  let bytes := memBytes s.mem (localOf pa) n
  ofBytes (if p.spec then ((List.range n).zip bytes).map (fun e => overlayByte p w (pa + e.1) e.2) else bytes)
/-- Mark a line. -/
def Spec.mark (f : Spec) (line : Nat) : Spec := if f.marks.contains line then f else { f with marks := line :: f.marks }
/-- A speculative load is performed at the home slice, and its line is marked for the warp (R239). -/
def State.markLoad (s : State) (k : WarpKey) (a : Nat) : State :=
  (s.modCore (s.coreNo k) (fun c => { c with l1 := ndel c.l1 (lineOf a) })).modWarp k
    (fun w => { w with spec := w.spec.map (·.mark (lineOf a)) })
/-- Perform a load (R130). -/
def State.doLoad (s : State) (k : WarpKey) (w : Warp) (p : Pend) (loc : Loc) (n : Nat) (conv : LoadConv) (dst : List Nat) : State :=
  let back := fun (s : State) (v : Nat) => (s.dropItem k p).fill k p.num p.lane dst (conv.toWords v)
  match loc with
  | .scr g off => back s (s.scratchVal g off n)
  | .mem pa =>
    let a := localOf pa
    if s.isRemote loc then s.sendItem k p
    else if s.isControl loc then (let r := s.ctrlRead (ctrlOff a) n; back r.1 r.2)
    else
      let c := s.coreNo k
      let s := s.flushBytes c a n
      -- The flush may recall a mark of the load's own warp, which discards the load (R240).
      if !(s.warp? k).any (fun w => w.pend.contains p) then s
      else if s.heldBytes c a n then s
      else if s.poisoned a n then s.parkItem k p
      else
        let v := s.loadVal w p pa n
        let s := if p.spec then s.markLoad k a else s
        back (s.stampLoad c a p.bypass) v

/-! ## Stores -/

/-- A store of a DET launch meets the tags; a conflict that DETCNF reports is known only now for a replayed store (R242), and its
fibre takes it at once, as a precise cause (DESIGN CHOICE, log entry 123). -/
def State.tagStore (s : State) (k : WarpKey) (p : Pend) (a : Nat) (b : List Byte) : State :=
  match s.launch? k.lid with
  | none => s
  | some l =>
    if !l.det then (s.stampStore (s.coreNo k) a p.bypass).writeMem a b
    else
      let r := s.detStore (s.coreNo k) l (identity k (p.lane % 64)) a b
      if r.2 then r.1.lateTrap k p.lane (addressTrap detConflict 0 p.va) p.pc p.hdr else r.1.storeCounts k p
/-- Perform a store (R130). -/
def State.doStore (s : State) (k : WarpKey) (p : Pend) (loc : Loc) (b : List Byte) : State :=
  let out := fun (s : State) => (s.dropItem k p).modWarp k (·.dropUndoTo p.num)
  match loc with
  | .scr .. => out (s.writeLoc loc b)
  | .mem pa =>
    let a := localOf pa
    if s.isRemote loc then s.sendItem k p
    else if s.isControl loc then (out s).ctrlWrite (ctrlOff a) b.length (ofBytes b)
    else
      let c := s.coreNo k
      let s := s.flushBytes c a b.length
      if s.heldBytes c a b.length then s else (out s).tagStore k p a b

/-! ## Atomics and reductions -/

/-- One unit at its place, and its old value: scratch, a control register, or memory. -/
def State.doUnit (s : State) (c : Nat) (u : AtomUnit) (atHome : Bool) : State × Nat :=
  match u.loc with
  | .scr g off =>
    let m := s.scratchVal g off u.size
    (match u.upd.apply u.size m with
    | some x => s.writeLoc u.loc (bytesOf u.size x)
    | none => s, m)
  | .mem pa =>
    if s.isControl u.loc then
      let r := s.ctrlRead (ctrlOff (localOf pa)) u.size
      (match u.upd.apply u.size r.2 with
      | some x => r.1.ctrlWrite (ctrlOff (localOf pa)) u.size x
      | none => r.1, r.2)
    else s.updateMem c (localOf pa) u.size u.upd atHome
/-- Is an atomic performed at its home slice: by its scope, and under DET always (R231, R241)? -/
def State.itemAtHome (s : State) (k : WarpKey) (p : Pend) (u : AtomUnit) : Bool :=
  match u.loc with
  | .mem pa => s.isDet k || s.atHome (s.coreNo k) (localOf pa) p.scope
  | .scr _ _ => true
/-- The units of a run, one member after another, each fibre given the value that the one before it left (R232, R256). -/
def State.doUnits (s : State) (k : WarpKey) (p : Pend) (us : List AtomUnit) (dst : List (Lane × List Nat)) (pred : Option Nat) : State :=
  us.foldl (fun (s : State) u =>
    let r := s.doUnit (s.coreNo k) u (s.itemAtHome k p u)
    if dst.isEmpty then r.1 else r.1.unitBack k p.num u dst pred r.2) ((s.dropItem k p).modWarp k (·.dropUndoTo p.num))
/-- A run on package memory, behind the reductions that its core holds for those bytes (R233). -/
def State.doRun (s : State) (k : WarpKey) (p : Pend) (us : List AtomUnit) (dst : List (Lane × List Nat)) (pred : Option Nat) : State :=
  match (us.head?).map (fun (u : AtomUnit) => u.loc) with
  | some (.mem pa) =>
    let c := s.coreNo k
    let a := localOf pa
    let n := ((us.head?).map (fun (u : AtomUnit) => u.size)).getD 1
    let s := s.flushBytes c a n
    if s.heldBytes c a n then s else if s.poisoned a n then s.parkItem k p else s.doUnits k p us dst pred
  | _ => s.doUnits k p us dst pred
/-- An atomic leaves the gate: one of a DET launch on package memory that returns a value is queued at its slice (R245). -/
def State.doAtom (s : State) (k : WarpKey) (p : Pend) (us : List AtomUnit) (dst : List (Lane × List Nat)) (pred : Option Nat) : State :=
  match us.head? with
  | none => s.dropItem k p
  | some u =>
    if s.isRemote u.loc then s.sendItem k p
    else if !s.isOwnMem u.loc then s.doUnits k p us dst pred
    else if s.isDet k && !dst.isEmpty then (s.setItem k p { p with stage := .queued }).modWarp k (·.dropUndoTo p.num)
    else s.doRun k p us dst pred
/-- A reduction leaves the gate for the combining buffer, or a floating add of a DET launch for its home slice, behind what the
buffer holds for its word (R233, event 7; R246). It stays in the gate while every entry of the buffer, its own among them, is held on
poison. -/
def State.doRed (s : State) (k : WarpKey) (p : Pend) (pa halves : Nat) (op : AtomOp) (ty : AtomType) (scope : Scope) (x : DWord) : State :=
  let a := localOf pa
  let c := s.coreNo k
  let out := fun (s : State) => (s.dropItem k p).modWarp k (·.dropUndoTo p.num)
  if s.isDet k && op == .add && ty.isFloat then
    let s := s.flushBytes c a ty.size
    if s.heldBytes c a ty.size then s
    else out { s with heldReds := s.heldReds ++
      [{ pa := a, halves := halves, ty := ty, x := x, ident := identity k (p.lane % 64), seq := p.seq, lid := k.lid, va := p.va, die := dieOf c }] }
  else if s.heldBytes c a ty.size then s
  else
    let t := s.addRed c a p.va halves op ty scope x k
    if 64 < (t.core c).comb.length then s.makeRoom c else out t

/-! ## LAUNCH and barrier arrivals (R167, R171, R185) -/

/-- LAUNCH: after the warp's earlier accesses, the record is read and handed to the front end. -/
def State.doLaunch (s : State) (k : WarpKey) (p : Pend) (loc : Loc) (dst : List Nat) : State :=
  let s := s.flushWarp k
  match loc with
  | .scr .. => s.dropItem k p
  | .mem pa =>
    let a := localOf pa
    let hand := fun (s : State) (b : List Byte) =>
      let r := s.append b (((s.launch? k.lid).map (fun (l : Launch) => l.root)).getD 0)
      ((r.1.dropItem k p).modWarp k (·.dropUndoTo p.num)).fill k p.num p.lane dst [r.2]
    if s.isRemote loc then s.sendItem k p
    else if s.isControl loc then
      let r := (List.range 8).foldl (fun (acc : State × List Byte) i =>
        let t := acc.1.ctrlRead (ctrlOff a + 16 * i) 16
        (t.1, acc.2 ++ bytesOf 16 t.2)) (s, [])
      hand r.1 r.2
    else
      let c := s.coreNo k
      let s := s.flushBytes c a 128
      if s.heldBytes c a 128 then s
      else if (List.range 4).any (fun i => s.poisoned (a + 32 * i) 32) then s.parkItem k p
      else hand (s.stampLoad c a false) (memBytes s.mem a 128)
/-- A held arrival: the barrier's own checks were made at issue. -/
def State.doArrive (s : State) (k : WarpKey) (p : Pend) (o : BarOp) (order : Nat) : State :=
  let s := (s.dropItem k p).modWarp k (·.dropUndoTo p.num)
  match s.barKey? k o with
  | some b => s.arrive k o b order
  | none => s

/-! ## Held effects (R329) -/

/-- Are the accesses before an item performed: what another package has yet to acknowledge, and an atomic that its slice has queued,
count as performed (R245)? -/
def Warp.performedBefore (w : Warp) (p : Pend) : Bool :=
  (itemsBefore p w.pend).all (fun q => !q.isAccess || q.stage.isSent || q.stage == .queued) &&
  w.log.all (fun e => e.2.tag == 0 || decide (p.num < e.2.num))
/-- The deque operations of a deterministic launch on one core follow the turn: they leave the gate as they were issued (R195). -/
def State.dequeTurn (s : State) (k : WarpKey) (p : Pend) : Bool :=
  !s.isDet k || (s.warps.filter (fun e => e.1.lid == k.lid && s.coreOf e.1 == s.coreOf k)).all (fun e =>
    e.2.pend.all (fun q => match q.kind with
      | .held (.deque ..) => decide (p.seq ≤ q.seq)
      | _ => true))
/-- May a held effect leave the gate: everything before it has left it, and its own rule lets it? A PUSH releases, so it waits for the
warp's earlier accesses (R187). -/
def State.heldReady (s : State) (k : WarpKey) (w : Warp) (p : Pend) (e : Held) : Bool :=
  p.stage == .waiting && !s.fenceHeld p && !(itemsBefore p w.pend).any (·.inGate) &&
  (match e with
  | .deque a _ => s.dequeTurn k p && (a != .push || w.performedBefore p)
  | _ => true)
/-- The lanes of a deque instruction act one after another, and each gets its result back (R187). -/
def State.applyDeque (s : State) (k : WarpKey) (p : Pend) (a : DequeAct) (ls : List (Lane × DWord × List Nat)) : State :=
  ls.foldl (fun s e =>
    let r := s.dequeLane (s.coreNo k) k.lid a e.2.1
    r.1.fill k p.num e.1 e.2.2 r.2) s
/-- A command that leaves the gate waits for its admission; a conversion starts (R307, R310). -/
def Command.ungate (x : Command) : Command := { x with stage := if 32 ≤ x.num then .admitted else .waiting }
/-- The effect itself. -/
def State.applyEffect (s : State) (k : WarpKey) (p : Pend) (e : Held) : State :=
  match e with
  | .tile t a => s.applyTile k t a
  | .command n _ => s.modCommand (s.groupKey k) n (·.ungate)
  | .deque a ls => s.applyDeque k p a ls
  | .name a => s.applyName k a
  | .hint h => s.modCore (s.coreNo k) (fun c => c.setHint k.lid h)
  | .setE o e => s.applySetE k o e
  | .dropOut o => s.applyDrop k o
/-- A held effect leaves the gate, once it may. A PUSH flushes the warp's reductions first; one that poison holds keeps it back. -/
def State.doHeld (s : State) (k : WarpKey) (w : Warp) (p : Pend) (e : Held) : State :=
  if !s.heldReady k w p e then s
  else
    let out := fun (s : State) => ((s.dropItem k p).modWarp k (·.dropUndoTo p.num)).applyEffect k p e
    match e with
    | .deque .push _ => (let t := s.flushWarp k; if t.warpRests k then t else out t)
    | _ => out s
/-! ## One item -/

/-- May the items of a warp move: its group is resident, and its cluster is powered? -/
def State.moves (s : State) (k : WarpKey) : Bool :=
  !s.grid.drained && (match s.coreOf k with
  | some c => !(s.cluster (clusterOf c)).retained
  | none => false)
/-- Perform an item of a warp, if its time has come. -/
def State.performItem (s : State) (k : WarpKey) (w : Warp) (p : Pend) : State :=
  if !s.moves k then s
  else
    let t : State := match p.kind with
      | .regs ws => (s.dropItem k p).modWarp k (·.complete p.num p.lane (·.fillEntries ws))
      | .cacheOp => s.dropItem k p
      | .held e => s.doHeld k w p e
      | .load loc n conv dst => if s.ready k w p then s.doLoad k w p loc n conv dst else s
      | .store loc b => if s.ready k w p then s.doStore k p loc b else s
      | .atom us dst pred => if s.ready k w p then s.doAtom k p us dst pred else s
      | .red (.mem pa) halves op ty scope x => if s.ready k w p then s.doRed k p pa halves op ty scope x else s
      | .red (.scr ..) .. => s.dropItem k p
      | .launch loc dst => if s.ready k w p && w.clearBefore p false && !(itemsBefore p w.pend).any (·.isLaunch) then s.doLaunch k p loc dst else s
      | .arrive o order => if w.clearBefore p (o.scope == .domain) && !w.behindHeld p then s.doArrive k p o order else s
    t.reapGroup (t.groupKey k)

/-- The first waiting item of an issue and lane that meets a condition. -/
def Warp.waitingItem (w : Warp) (num lane : Nat) (f : Pend → Bool) : Option Pend :=
  w.pend.find? (fun p => p.num == num && p.lane == lane && p.stage == .waiting && f p)
/-- Perform it. -/
def State.performOf (s : State) (k : WarpKey) (num lane : Nat) (f : Pend → Bool) : State :=
  match s.warp? k with
  | none => s
  | some w => match w.waitingItem num lane f with
    | some p => s.performItem k w p
    | none => s

/-- Does an item write its destination back from where it was formed, or from a read? -/
def Pend.writesBack (p : Pend) : Bool :=
  match p.kind with
  | .regs _ | .load .. | .atom .. | .launch .. => true
  | _ => false
/-- Does an item wait in the store gate? -/
def Pend.isGated (p : Pend) : Bool :=
  match p.kind with
  | .store .. | .red .. | .atom .. | .cacheOp | .arrive .. | .held _ => true
  | _ => false
/-- LONG_LATENCY_WRITEBACK (R18). -/
def execLongLatencyWriteback (lid : BitVec 32) (w num lane : Nat) (s : State) : Out := .next (s.performOf ⟨lid, w⟩ num lane (·.writesBack))
/-- STORE_GATE_RELEASE (R329). -/
def execStoreGateRelease (lid : BitVec 32) (w num lane : Nat) (s : State) : Out := .next (s.performOf ⟨lid, w⟩ num lane (·.isGated))

/-! ## The resolution of a FENCE (R238) -/

/-- Are the accesses of issues before `n` performed, and acknowledged where their target is another package? A deterministic
atomic that its slice has queued counts as performed. -/
def Warp.performedTo (w : Warp) (n : Nat) : Bool :=
  w.pend.all (fun p => decide (n ≤ p.num) || !p.isAccess || p.stage == .queued) && w.log.all (fun e => e.2.tag == 0 || decide (n ≤ e.2.num))
/-- The FENCE is resolved: marks are cleared, and the undo log keeps its last 64 records. -/
def Warp.resolve (w : Warp) : Warp :=
  { w with spec := none, pend := w.pend.map (fun p => { p with spec := false }), undo := w.undo.take 64 }
/-- Perform the first waiting item of each given issue and lane that is a store, in that order. -/
def State.releaseStores (s : State) (k : WarpKey) (ids : List (Nat × Nat)) : State :=
  ids.foldl (fun s e => s.performOf k e.1 e.2 (fun p => match p.kind with
    | .store .. => true
    | _ => false)) s
/-- The FENCE resolves and the gate is released: the stores that leave it are performed in program order in this one step (R238). A
store that waits behind a flush held on poison delays the resolution (DEDUCED, log entry 130). -/
def State.resolveFence (s : State) (k : WarpKey) (w : Warp) : State :=
  let out := (w.pend.filter (s.leavesAtResolve k w)).map (fun p => (p.num, p.lane))
  let t := (s.modWarp k (·.resolve)).releaseStores k out
  if ((t.warp? k).map (fun x => x.pend.any (fun p => out.contains (p.num, p.lane) && (match p.kind with
    | .store .. => true
    | _ => false)))).getD false then s else t
/-- FENCE_RESOLVE. -/
def execFenceResolve (lid : BitVec 32) (w : Nat) (s : State) : Out :=
  let k : WarpKey := ⟨lid, w⟩
  .next (match (s.warp? k).bind (·.spec) with
    | none => s
    | some f =>
      if !((s.warp? k).map (·.performedTo f.num)).getD false || !s.moves k then s
      else
        let s := s.flushWarp k
        if s.warpRests k then s
        else match s.warp? k with
          | some w => s.resolveFence k w
          | none => s)

/-! ## Queued deterministic atomics (R245) -/

/-- The one of the least key. -/
def leastKey : List (WarpKey × Pend) → Option (WarpKey × Pend)
  | [] => none
  | x :: l => match leastKey l with
    | some y => if keyLess y.2.key x.2.key then some y else some x
    | none => some x
/-- Apply the least one, once it is queued and every horizon has passed its key. -/
def State.applyDet (s : State) (lid : Word) : State :=
  match s.launch? lid, leastKey (s.detAtoms lid) with
  | some l, some (k, p) =>
    if p.stage != .queued || !s.allPassed l p.key || !s.moves k then s
    else match p.kind with
      | .atom us dst pred => (let t := s.doRun k p us dst pred; t.reapGroup (t.groupKey k))
      | _ => s
  | _, _ => s
/-- DET_ATOMIC_APPLY. -/
def execDetAtomicApply (lid : BitVec 32) (s : State) : Out := .next (s.applyDet lid)

end Sys2Proof.Machine
end

