-- ==== Sys2Proof/Machine/EngineRun.lean ====
section
/-! DEFINITION. How engine commands run: the iterations of MMA (R303), EPI (R304) and COPY (R305, R306), what stops or ends
them (R299 to R301), their completion (R235, R302 to R307), and a matrix column that fails (R303). -/

namespace Sys2Proof.Machine

/-! ## One iteration -/

/-- Why an iteration does not run now: it stops its command, ends it, waits for memory, or has to ask another package for bytes
or tell it some. Cause, reason and address are those of the engine fault record (R301). -/
inductive Halt where
  | stop (cause reason addr : Nat)
  | fail (cause reason addr : Nat)
  | hold
  | ask (va pa n : Nat)
  | tell (va pa : Nat) (b : List Byte)
  deriving DecidableEq, Repr
/-- Where an iteration writes. -/
inductive Spot where
  | mem (va pa : Nat)
  | scr (off : Nat)
  | tile (off : Nat)
  deriving DecidableEq, Repr
/-- What an iteration does: the state after its reads, and its writes. -/
abbrev Iter := Except Halt (State × List (Spot × List Byte))

/-- The core and the command that run. -/
structure Run where
  core : Nat
  cmd : Command

/-- The root of a command's launch. -/
def State.rootOf (s : State) (k : WarpKey) : Nat := ((s.launch? k.lid).map (fun (l : Launch) => l.root)).getD 0
/-- Translate an address for an engine (R300, R334). -/
def Run.translate (r : Run) (s : State) (va : Nat) (kind : Kind) : Except Halt Nat :=
  match s.translateFor r.core (s.rootOf r.cmd.key) va kind none with
  | .poison => .error (.stop 0x14 0 va)
  | .fault n => .error (if n = 1 ∨ n = 2 then .stop 0x10 n va else .fail 0x11 n va)
  | .ok pa _ => .ok pa
/-- The reductions that the core holds for these bytes are flushed first (R233); a flush held on poison holds the access. -/
def Run.flush (r : Run) (s : State) (a n : Nat) : Except Halt State :=
  let s := s.flushBytes r.core a n
  if s.heldBytes r.core a n then .error .hold else .ok s
/-- Scratch of the command's group holds n bytes from an offset. -/
def Run.checkScratch (r : Run) (s : State) (off n : Nat) : Except Halt Unit :=
  if s.scratchSize r.cmd.key < off + n then .error (.fail 0x11 4 off) else .ok ()
/-- n bytes of the group's scratch. -/
def Run.scratch (r : Run) (s : State) (off n : Nat) : List Byte :=
  ((s.group? (s.groupKey r.cmd.key)).map (·.scratchBytes off n)).getD (List.replicate n 0)
/-- The tile of a command with a tile endpoint. -/
def Run.tile (r : Run) (s : State) (t : Nat) : Tile := ((s.warp? r.cmd.key).map (·.tile t)).getD {}

/-- Is an access to another package at this address refused, timed out or without a route (R369, R370)? -/
def Run.peerRefused (r : Run) (s : State) (pa : Nat) : Bool := !s.router.reaches (packageOf pa) || r.cmd.refused == some pa
/-- Read an element of another package: what it answered, once it has been asked. -/
def Run.readPeer (r : Run) (s : State) (va pa n : Nat) : Except Halt (List Byte) :=
  if r.peerRefused s pa then .error (.fail 0x11 4 va)
  else match r.cmd.answers.find? (fun e => e.1 == pa && e.2.length == n) with
    | some e => .ok e.2
    | none => .error (.ask va pa n)
/-- Read n bytes at a position of an endpoint. -/
def Run.read (r : Run) (s : State) (e : Endpoint) (t pos n : Nat) : Except Halt (State × List Byte) :=
  match e with
  | .tile => .ok (s, imgBytes (r.tile s t).image pos n)
  | .scratch => do
    r.checkScratch s pos n
    pure (s, r.scratch s pos n)
  | .memory => do
    let pa ← r.translate s pos .read
    let a := localOf pa
    if s.isRemote (.mem pa) then do
      let b ← r.readPeer s pos pa n
      pure (s, b)
    else if s.isControl (.mem pa) then
      let x := s.ctrlRead (ctrlOff a) n
      pure (x.1, bytesOf n x.2)
    else do
      let s ← r.flush s a n
      if s.poisoned a n then .error (.stop 0x14 0 pos) else pure (s, memBytes s.mem a n)
/-- The place that a write of n bytes at a position of an endpoint goes to. -/
def Run.spot (r : Run) (s : State) (e : Endpoint) (pos n : Nat) : Except Halt (State × Spot) :=
  match e with
  | .tile => .ok (s, .tile pos)
  | .scratch => do
    r.checkScratch s pos n
    pure (s, .scr pos)
  | .memory => do
    let pa ← r.translate s pos .write
    if s.isRemote (.mem pa) then
      (if r.peerRefused s pa then .error (.fail 0x11 4 pos) else pure (s, .mem pos pa))
    else if s.isControl (.mem pa) then pure (s, .mem pos pa)
    else do
      let s ← r.flush s (localOf pa) n
      pure (s, .mem pos pa)

/-! ## COPY (R305) -/

/-- The index that vector n of a gather or scatter reads, below LIMIT. -/
def Run.index (r : Run) (s : State) (mode : CopyMode) (base z n : Nat) : Except Halt Nat := do
  let off := r.cmd.params.misc + 4 * n
  r.checkScratch s off 4
  let x := ofBytes (r.scratch s off 4)
  if (x : Int) < r.cmd.params.limit mode then pure (base + x * z) else .error (.fail 0x23 5 (base + x * z))
/-- Move element n. -/
def Run.copy (r : Run) (src dst : Endpoint) (mode : CopyMode) (t z : Nat) (n : Nat) (s : State) : Iter := do
  let p := r.cmd.params
  let from_ ← if mode = .gather then r.index s mode p.addr0 z n else pure (p.position p.addr0 p.s0 n).toNat
  let to_ ← if mode = .scatter then r.index s mode p.addr1 z n else pure (p.position p.addr1 p.s1 n).toNat
  let x ← r.read s src t from_ z
  let y ← r.spot x.1 dst to_ z
  pure (y.1, [(y.2, x.2)])

/-! ## EPI (R304) -/

/-- An FP32 value of the vector area: which of its four vectors, and the index. -/
def Run.vector (r : Run) (s : State) (which i : Nat) : FVal := fdec f32 (ofBytes (r.scratch s (r.cmd.params.addr1 + 256 * which + 4 * i) 4))
/-- The activations. -/
def actOf (a : ActFn) (y : Word) : Word :=
  match a with
  | .none => y
  | .relu => (match fdec f32 y.toNat with
    | .nan => BitVec.ofNat 32 f32.nan
    | v => if (FVal.fin false 0 0).lt v then y else 0)
  | .gelu => BitVec.ofNat 32 (geluOp y)
  | .silu => BitVec.ofNat 32 (siluOp y)
/-- z of element (i, j): scales and biases exactly, one rounding to FP32, then the activation. -/
def Run.epiValue (r : Run) (s : State) (slot : RingSlot) (act : ActFn) (rsc csc rbi cbi : Bool) (i j : Nat) : FVal :=
  let x := fdec f32 (slot.elem i j).toNat
  let x := if rsc then x.mul (r.vector s 0 i) else x
  let x := if csc then x.mul (r.vector s 1 j) else x
  let x := fsum false ([x] ++ (if rbi then [r.vector s 2 i] else []) ++ (if cbi then [r.vector s 3 j] else []))
  fdec f32 (actOf act (BitVec.ofNat 32 (froundRNE f32 x))).toNat
/-- The slot that a command names. -/
def State.slotOf (s : State) (x : Command) : RingSlot := ((s.group? (s.groupKey x.key)).map (·.slot x.slot)).getD {}
/-- Write element n of the output shape. -/
def Run.epi (r : Run) (dst : Endpoint) (act : ActFn) (fs : Word) (rsc csc rbi cbi : Bool) (n : Nat) (s : State) : Iter := do
  let p := r.cmd.params
  let z := outSize (slotBase fs)
  let v := r.epiValue s (s.slotOf r.cmd) act rsc csc rbi cbi (p.index n 1) (p.index n 0)
  let y ← r.spot s dst (p.position p.addr0 p.s0 n).toNat z
  pure (y.1, [(y.2, bytesOf z (plainCode (slotBase fs) (slotMode fs) (slotSat fs) (genSteps n r.cmd.gen) v))])
/-- The whole image of a tile output. -/
def Run.epiTile (r : Run) (s : State) (t : Nat) (act : ActFn) (rsc csc rbi cbi : Bool) : NMap Byte :=
  let h := s.tileShape r.cmd.key (r.tile s t)
  let slot := s.slotOf r.cmd
  produceImage h (slotMode h.slot) (slotSat h.slot) (fun n => genSteps n r.cmd.gen) (r.epiValue s slot act rsc csc rbi cbi)

/-! ## MMA (R303) -/

/-- The tiles of vector n. -/
def Params.tileAt (p : Params) (t : Nat) (steps : List Int) (n : Nat) : Nat := (p.position t steps n % 16).toNat
/-- Element (i, j) after vectors n to n + k - 1. -/
def Run.mmaAt (r : Run) (s : State) (ta tb : Nat) (neg : Bool) (n k i j : Nat) (acc : Word) : Word :=
  (List.range k).foldl (fun acc v =>
    let a := r.tile s (r.cmd.params.tileAt ta r.cmd.params.s0 (n + v))
    let b := r.tile s (r.cmd.params.tileAt tb r.cmd.params.s1 (n + v))
    mmaElement neg (s.tileShape r.cmd.key a) (s.tileShape r.cmd.key b) a.image b.image i j acc) acc
/-- The elements of the slot after those vectors; elements outside M x N are unchanged. -/
def Run.mma (r : Run) (s : State) (ta tb : Nat) (neg : Bool) (n k : Nat) (x : RingSlot) : RingSlot :=
  let m := (s.tileShape r.cmd.key (r.tile s ta)).rows
  let c := (s.tileShape r.cmd.key (r.tile s tb)).rows
  { x with elems := (List.range 4096).filterMap fun e =>
      let old := ngetD x.elems 0 e
      let new := if e / 64 < m ∧ e % 64 < c then r.mmaAt s ta tb neg n k (e / 64) (e % 64) old else old
      if new = 0 then none else some (e, new) }
/-- An MMA runs while its core has a matrix column. -/
def Run.column (r : Run) (_n : Nat) (s : State) : Iter :=
  if (s.core r.core).retiredCols = BitVec.allOnes 16 then .error (.fail 0x23 6 0) else .ok (s, [])

/-! ## A run of iterations -/

/-- Iteration n of a command. -/
def Run.iter (r : Run) (n : Nat) (s : State) : Iter :=
  match r.cmd.instr with
  | .copy _ _ t src dst mode esz _ => r.copy src dst mode t.val (2 ^ esz.val) n s
  | .epi _ _ _ dst act fslot rsc csc rbi cbi _ =>
    if dst = .tile then .ok (s, [])
    else r.epi dst act (((s.launch? r.cmd.key.lid).map (·.slot fslot.val)).getD 0) rsc csc rbi cbi n s
  | _ => r.column n s
/-- The address of another package that a write goes to, virtual and physical. -/
def State.toPeer (s : State) (w : Spot × List Byte) : Option (Nat × Nat) :=
  match w.1 with
  | .mem va pa => if s.isRemote (.mem pa) then some (va, pa) else none
  | _ => none
/-- k iterations from n: how many ran, the state, their writes in order, and what halted them. A write to another package that it has
not yet performed halts them; an iteration has one write, so one whose write is performed there is over. -/
def Run.iters (r : Run) : (k : Nat) → (n : Nat) → State → List (Spot × List Byte) → Nat × State × List (Spot × List Byte) × Option Halt
  | 0, n, s, ws => (n, s, ws, none)
  | k + 1, n, s, ws =>
    if r.cmd.written.contains n then Run.iters r k (n + 1) s ws
    else match r.iter n s with
      | .error h => (n, s, ws, some h)
      | .ok x => match x.2.findSome? (fun w => (s.toPeer w).map (fun pa => (pa, w.2))) with
        | none => Run.iters r k (n + 1) x.1 (ws ++ x.2)
        | some ((va, pa), b) => (n, s, ws, some (.tell va pa b))

/-! ## Writes enter O (R235) -/

/-- The last bytes written at each place of one kind, by place: every element of a command has one size and is aligned to it. -/
def lastWrites (f : Spot → Option Nat) (ws : List (Spot × List Byte)) : NMap (List Byte) :=
  ws.foldl (fun m w => match f w.1 with
    | some a => nput m a w.2
    | none => m) []
def Spot.mem? : Spot → Option Nat
  | .mem _ pa => some pa
  | _ => none
def Spot.scr? : Spot → Option Nat
  | .scr off => some off
  | _ => none
def Spot.tile? : Spot → Option Nat
  | .tile off => some off
  | _ => none
/-- One element enters O: a control register, or memory under the issuing fibre's identity (R309). -/
def Run.enter (r : Run) (s : State) (pa : Nat) (b : List Byte) : State :=
  let a := localOf pa
  if s.isControl (.mem pa) then s.ctrlWrite (ctrlOff a) b.length (ofBytes b)
  else match s.launch? r.cmd.key.lid with
    | some l =>
      if l.det then (s.detStore r.core l (identity r.cmd.key r.cmd.lane) a b).1 else (s.stampStore r.core a true).writeMem a b
    | none => s
/-- Write bytes of an image, but for those that are padding (R277). -/
def imgFill (h : Shape) (m : NMap Byte) (o : Nat) : List Byte → NMap Byte
  | [] => m
  | b :: l => imgFill h (if h.isPadding o then m else imgSet m o b) (o + 1) l
/-- The writes of a run, in ascending address; those of a tile go into the image that its fill is making. -/
def Run.commit (r : Run) (s : State) (ws : List (Spot × List Byte)) : State :=
  let s := (lastWrites Spot.mem? ws).foldl (fun (s : State) e => r.enter s e.1 e.2) s
  let g := s.groupKey r.cmd.key
  let s := (lastWrites Spot.scr? ws).foldl (fun (s : State) e => s.modGroup g (fun (q : Group) => q.setScratch e.1 e.2)) s
  match r.cmd.fill with
  | none => s
  | some t =>
    let h := s.tileShape r.cmd.key (r.tile s t)
    (lastWrites Spot.tile? ws).foldl (fun (s : State) e => s.modWarp r.cmd.key
      (fun w => w.setTile t { w.tile t with image := imgFill h (w.tile t).image e.1 e.2 })) s
/-- An MMA's slot after its iterations from where it stands up to n. -/
def Run.accumulate (r : Run) (s : State) (n : Nat) : State :=
  match r.cmd.instr with
  | .mma _ _ ta tb _ _ _ neg =>
    let x := r.mma s ta.val tb.val neg r.cmd.done (n - r.cmd.done) (s.slotOf r.cmd)
    s.modGroup (s.groupKey r.cmd.key) (fun (q : Group) => q.setSlot r.cmd.slot x)
  | _ => s

/-! ## Which commands may run (R309) -/

/-- A command of a core. -/
def State.commandOf (s : State) (c n : Nat) : Option Command := nget? (s.core c).cmds n
/-- The commands and locks of a core, with those that stopped commands of groups that left it keep (R299). -/
def State.coreCommands (s : State) (c : Nat) : List (Command × List RangeLock) :=
  ((s.core c).cmds.map (fun e => (e.2, (s.core c).locks.filter (fun l => l.cmd == e.1)))) ++
  (s.groups.filter (fun g => !g.2.isResident && g.2.lastCore == c)).flatMap (fun g =>
    g.2.cmds.map (fun (x : Command) => (x, g.2.locks.filter (fun (l : RangeLock) => l.cmd == x.num))))
/-- Do two boxes meet where one of them is written? -/
def RangeLock.clash (a b : RangeLock) : Bool := (a.write || b.write) && a.box.meets b.box
/-- Two accumulations into one slot run in issue order (R283). -/
def State.sameSlot (s : State) (x y : Command) : Bool :=
  match x.instr, y.instr with
  | .mma .., .mma .. => s.groupKey x.key == s.groupKey y.key && x.slot == y.slot
  | _, _ => false
/-- Does an earlier command of the core, neither complete nor ended, hold this one back? -/
def State.runsAfter (s : State) (c : Nat) (x : Command) : Bool :=
  let own := (s.core c).locks.filter (fun l => l.cmd == x.num)
  (s.coreCommands c).any (fun y => y.1.before x && y.1.stage != .ended &&
    (y.2.any (fun l => own.any l.clash) || s.sameSlot x y.1))
/-- The admitted command of a core that may run now. -/
def State.running (s : State) (c n : Nat) : Option Command :=
  (s.commandOf c n).bind (fun x =>
    if x.stage = .admitted ∧ n < 32 ∧ !s.grid.drained ∧ !(s.cluster (clusterOf c)).retained ∧ !s.runsAfter c x then some x else none)

/-! ## Completion -/

/-- The scale plane that a COPY moves as one block (R306). -/
def Run.scalePlane (r : Run) (s : State) : State :=
  match r.cmd.instr with
  | .copy _ _ t src dst .strided _ _ =>
    let tl := r.tile s t.val
    let h := s.tileShape r.cmd.key tl
    if (src = .tile ∨ dst = .tile) ∧ slotSloc h.slot = 1 then
      (if src = .tile then s.modGroup (s.groupKey r.cmd.key) (fun (q : Group) => q.setScratch r.cmd.params.misc (imgBytes tl.image h.scaleAt h.scaleSize))
       else s.modWarp r.cmd.key (fun w => w.setTile t.val { w.tile t.val with
         image := imgSetBytes (w.tile t.val).image h.scaleAt (r.scratch s r.cmd.params.misc h.scaleSize) }))
    else s
  | _ => s
/-- The image that the command's fill completes with. -/
def Run.fillImage (r : Run) (s : State) : NMap Byte :=
  match r.cmd.instr, r.cmd.fill with
  | .epi _ _ _ _ act _ rsc csc rbi cbi _, some t => r.epiTile s t act rsc csc rbi cbi
  | _, some t => (r.tile s t).image
  | _, none => []
/-- Close of an MMA (R283). -/
def Run.close (r : Run) (s : State) : State :=
  match r.cmd.instr with
  | .mma _ _ _ _ _ _ cls _ => if cls then
      s.modGroup (s.groupKey r.cmd.key) (fun (q : Group) => q.setSlot r.cmd.slot (q.slot r.cmd.slot).close) else s
  | _ => s
/-- What follows the writes: fill and read completions, Close or Consume completion, the locks and the peak, the arrival. -/
def Run.finish (r : Run) (s : State) (energy : Nat) : State :=
  let x := r.cmd
  let g := s.groupKey x.key
  let s := ((s.fillsDone x (r.fillImage s)).readsDone x)
  let s := ((r.close s).consumeDone g x).chargeEnergy r.core x energy
  ((s.modCore r.core (·.dropCommand x.num)).commandArrives g x).reapGroup g
/-- A command has done its iterations before n, their writes in O. -/
def Run.haltAt (r : Run) (s : State) (n : Nat) : State :=
  s.modCommand (s.groupKey r.cmd.key) r.cmd.num (fun y =>
    if y.done = n then y else { y with done := n, answers := [], written := y.written.filter (fun m => decide (n ≤ m)) })
/-- A request of iteration n to another package, as one of a warp's would go (R370, R371): none while one is outstanding. The
writes to its own package wait for the stop point or completion, where they enter O as one run (R235); until then no iteration reads
them (R305). -/
def Run.request (r : Run) (s : State) (n va pa kind : Nat) (b : List Byte) : State :=
  let x := r.cmd
  if s.awaits r.core x || decide (4096 ≤ (s.flow r.core (packageOf pa)).open_.length) then s
  else (s.request x.key x.seq x.lane n pa ⟨kind, localOf pa, .exch, .b32, b, false⟩ (some x.num)
    (some (s.rootOf x.key, va / 2 ^ 16))).1
/-- What a halt at iteration n makes a command do that goes on: it asks another package, or tells it. Nothing happens while an
iteration would stop, end or hold it. -/
def Run.outward (r : Run) (s : State) (n : Nat) : Halt → State
  | .ask va pa k => r.request s n va pa 0 (List.replicate k 0)
  | .tell va pa b => r.request s n va pa 1 b
  | _ => s
/-- A command completes: its remaining iterations run, their writes enter O, and the effects of completion follow. An iteration
that needs another package asks it first. -/
def Run.complete (r : Run) (s : State) (energy : Nat) : State :=
  let x := r.cmd
  match r.iters (x.params.total - x.done) x.done s [] with
  | (_, t, ws, none) => r.finish (r.scalePlane (r.accumulate (r.commit t ws) x.params.total)) energy
  | (n, _, _, some h) => r.outward s n h

/-- EPI_COMPLETION (R304). -/
def execEpiCompletion (core cmd energy : Nat) (s : State) : Out :=
  .next (match s.running core cmd with
    | some x => (match x.instr with
      | .epi .. => Run.complete { core := core, cmd := x } s energy
      | _ => s)
    | none => s)
/-- COPY_COMPLETION (R305). -/
def execCopyCompletion (core cmd energy : Nat) (s : State) : Out :=
  .next (match s.running core cmd with
    | some x => (match x.instr with
      | .copy .. => Run.complete { core := core, cmd := x } s energy
      | _ => s)
    | none => s)
/-- TCVT_COMPLETION (R307). -/
def execTcvtCompletion (core cmd : Nat) (s : State) : Out :=
  .next (match s.commandOf core cmd with
    | some x => if cmd < 32 ∨ x.stage ≠ .admitted ∨ s.grid.drained ∨ (s.cluster (clusterOf core)).retained then s
      else (let t := s.completeTcvt core x; t.reapGroup (t.groupKey x.key))
    | none => s)

/-! ## Stops (R299, R301) -/

/-- A fault stops it there: its record is posted and it waits for the answer. -/
def Run.faultAt (r : Run) (s : State) (n cause reason addr : Nat) : State :=
  let g := s.groupKey r.cmd.key
  let x := { r.cmd with fault := r.cmd.faultBytes cause reason addr true n }
  let t := s.record (dieOf r.core) (x.queueRecord r.core)
  let s := (t.1.modCommand g x.num (fun y => { y with fault := x.fault, record := some (dieOf r.core, t.2) })).pauseCommand g r.core r.cmd .stopped
  s.modGroup g (fun (q : Group) => { q with records := q.records ++ [(dieOf r.core, t.2)] })
/-- Does pre-emption, swap-out, shedding or a drain stop the commands of the core now (R299)? -/
def State.stopsCommands (s : State) (c : Nat) : Bool := s.grid.draining || (s.groupsOn c).any (fun g => s.stopsGroup g)
/-- A stop before iteration `upto`: there its access faults and is serviced, or it is a stop point of the granule and
something stops the commands of the core. -/
def Run.stop (r : Run) (s : State) (upto : Nat) : State :=
  let x := r.cmd
  if upto < x.done ∨ x.params.total ≤ upto ∨ s.awaits r.core x then s
  else match r.iters (upto - x.done) x.done s [] with
    | (_, t, ws, none) =>
      let u := r.haltAt (r.accumulate (r.commit t ws) upto) upto
      (match r.iter upto t with
      | .error (.stop cause reason addr) => r.faultAt u upto cause reason addr
      | _ => if upto % x.params.span = 0 ∧ s.stopsCommands r.core ∧ x.written.all (fun m => decide (m < upto)) then u.pauseCommand (u.groupKey x.key) r.core x .waiting else s)
    | (n, _, _, some h) => r.outward s n h
/-! ## Ends (R300) -/

/-- The command ends at iteration n: the record is posted, and R300's steps follow. -/
def Run.endAt (r : Run) (s : State) (n cause reason addr : Nat) : State :=
  let g := s.groupKey r.cmd.key
  let x := { r.cmd with fault := r.cmd.faultBytes cause reason addr false n }
  let s := ((s.note (dieOf r.core) (x.queueRecord r.core)).modCommand g x.num (fun y => { y with fault := x.fault })).chargeEnergy
    r.core x (Config.stopEnergy s.tick r.core x.num)
  s.endCommand g x
/-- The first iteration that cannot be serviced ends the command; those before it complete. -/
def Run.fault (r : Run) (s : State) : State :=
  let x := r.cmd
  match r.iters (x.params.total - x.done) x.done s [] with
  | (n, t, ws, some (.fail cause reason addr)) => r.endAt (r.commit t ws) n cause reason addr
  | _ => s
/-- ENGINE_END (R300). -/
def execEngineEnd (core cmd : Nat) (s : State) : Out :=
  .next (match s.running core cmd with
    | some x => Run.fault { core := core, cmd := x } s
    | none => s)

/-- What halts a running command that cannot complete, as the event that does it: a stop at the iteration that faults, an end,
or a stop at its next stop point. -/
def State.haltEvent (s : State) (c n : Nat) : Option Instr :=
  (s.running c n).bind (fun x =>
    let r : Run := { core := c, cmd := x }
    match r.iters (x.params.total - x.done) x.done s [] with
    | (m, _, _, some (.stop ..)) => some (.engineStop c n m)
    | (_, _, _, some (.fail ..)) => some (.engineEnd c n)
    | _ =>
      let from_ := x.written.foldl (fun m i => max m (i + 1)) x.done
      if s.stopsCommands c then some (.engineStop c n ((from_ + x.params.span - 1) / x.params.span * x.params.span)) else none)

/-! ## A matrix column fails (R303, R336) -/

/-- The admitted MMA commands of a core, the oldest first. -/
def State.admittedMmas (s : State) (c : Nat) : List Command :=
  inOrder (((s.core c).cmds.map (fun (e : Nat × Command) => e.2)).filter (fun x => x.stage == .admitted && (match x.instr with
    | .mma .. => true
    | _ => false)))
/-- A column's residue check mismatches: the column retires, and the command that met it runs again from its last stop point on
those that remain; with none left it ends. A column whose retirement has to wait for another's (R335) counts as one that remains until
its own begins (DESIGN CHOICE, log entry 160). -/
def Run.columnFails (r : Run) (s : State) (column : Nat) : State :=
  let s := s.retire r.core 3 column
  match r.column r.cmd.done s with
  | .error (.fail cause reason addr) => r.endAt s r.cmd.done cause reason addr
  | _ => s
/-- COLUMN_RESIDUE_MISMATCH. -/
def execColumnResidueMismatch (core column : Nat) (s : State) : Out :=
  .next (match s.admittedMmas core with
    | x :: _ =>
      if s.grid.drained ∨ (s.cluster (clusterOf core)).retained ∨ 16 ≤ column then s
      else Run.columnFails { core := core, cmd := x } s column
    | [] => s)

/-- The residue checks of an MMA as its sums go into its slot: one that mismatches by injection does so now (R337). -/
def Run.residue (r : Run) (s : State) (go : State → State) : State :=
  match r.cmd.instr, (s.core r.core).badColumn with
  | .mma .., some u =>
    let s := s.modCore r.core (fun k => { k with badColumn := none })
    if (s.core r.core).isRetired 3 u then go s else r.columnFails s u
  | _, _ => go s
/-- MMA_COMPLETION (R302). -/
def execMmaCompletion (core cmd energy : Nat) (s : State) : Out :=
  .next (match s.running core cmd with
    | some x => (match x.instr with
      | .mma .. =>
        let r : Run := { core := core, cmd := x }
        r.residue s (fun s => r.complete s energy)
      | _ => s)
    | none => s)
/-- ENGINE_STOP (R299). -/
def execEngineStop (core cmd upto : Nat) (s : State) : Out :=
  .next (match s.running core cmd with
    | some x =>
      let r : Run := { core := core, cmd := x }
      r.residue s (fun s => r.stop s upto)
    | none => s)

end Sys2Proof.Machine
end

