-- ==== Sys2Proof/Machine/MemIssue.lean ====
section
/-! DEFINITION. The issue of a memory access once its addresses are formed (R216, R222, R242, R248): each fibre traps, is logged, or
leaves its outstanding item. -/

namespace Sys2Proof.Machine

/-! ## Issue -/

/-- One store of a DETCNF launch inside its package, as the instruction issues (R242): to the control region, or to memory behind what
the core's buffer holds for its bytes. The lanes that conflict take no part. -/
def State.storeNow (s : State) (x : Ctx) (m : MemAccess) (p : Placed) : State × Bool :=
  match p.loc, s.launch? x.key.lid with
  | .mem pa, some l =>
    let b := bytesOf m.size p.data
    if s.isControl p.loc then (s.ctrlWrite (ctrlOff (localOf pa)) m.size (ofBytes b), false)
    else (s.flushBytes (s.coreNo x.key) (localOf pa) m.size).detStore (s.coreNo x.key) l (identity x.key p.lane) (localOf pa) b
  | _, _ => (s, false)
/-- Such stores of an instruction in ascending lane (R225), and the lanes that conflict. -/
def State.storesNow (s : State) (x : Ctx) (m : MemAccess) (ps : List Placed) : State × List Lane :=
  ps.foldl (fun (acc : State × List Lane) p =>
    let t := acc.1.storeNow x m p
    (t.1, if t.2 then acc.2 ++ [p.lane] else acc.2)) (s, [])
/-- The core's buffer is flushed for their bytes, as far as poison lets it (R233, R334). -/
def State.flushFor (s : State) (x : Ctx) (m : MemAccess) (ps : List Placed) : State :=
  ps.foldl (fun s p => match p.loc with
    | .mem pa => if s.isOwnMem p.loc then s.flushBytes (s.coreNo x.key) (localOf pa) m.size else s
    | .scr _ _ => s) s
/-- Does a flush that poison holds keep one of them waiting? -/
def State.heldFor (s : State) (x : Ctx) (m : MemAccess) (ps : List Placed) : Bool :=
  ps.any (fun p => match p.loc with
    | .mem pa => s.isOwnMem p.loc && s.heldBytes (s.coreNo x.key) (localOf pa) m.size
    | .scr _ _ => false)

/-- The issue of an access for the fibres `ps` whose addresses are formed and unlocked: translation, and what becomes of each
fibre (R216, R222, R315). `gone` are the fibres that trapped before. -/
def State.issuePlaced (s : State) (x : Ctx) (m : MemAccess) (gone : List Lane) (ps : List (Lane × Goes)) : Act :=
  let dstOf := fun (l : Lane) => match m.dst with
    | some (r, n) => (x.fibre l).entriesFrom r n
    | none => []
  let outs : List (Lane × Outcome) := ps.map fun e => (e.1, match e.2 with
    | .mem va => s.place x.key m.op (x.fibre e.1).lastPage e.1 va (m.data (x.fibre e.1)) (dstOf e.1)
    | .scr g off => .ok { lane := e.1, va := off, loc := .scr g off, data := m.data (x.fibre e.1), dst := dstOf e.1,
                          loc2 := if m.op.straddles off then some (.scr g (off + 2)) else none } none
    | .trap _ => .deferred 0)
  let vaOf := fun (l : Lane) => match (ps.find? (fun e => e.1 == l)).map (·.2) with
    | some (.mem va) => va
    | some (.scr _ off) => off
    | _ => 0
  let poisoned := outs.filterMap (fun o => o.2.poisonAt.map (fun va => (o.1, va)))
  if !poisoned.isEmpty then
    .wait (s.park x.key (s.poisonRecord x.key (poisoned.map (·.1)) ((poisoned.head?).map (·.2) |>.getD 0) x.iss.pc x.iss.hdr)) gone
  else
    let placed := outs.filterMap (fun o => match o.2 with
      | .ok p _ => some p
      | _ => none)
    let remote := placed.any (fun p => s.isRemote p.loc || (p.loc2.any s.isRemote))
    let det := s.isDet x.key
    let detcnf := ((s.launch? x.key.lid).map (fun l => l.det && l.detcnf)).getD false
    let direct := detcnf && m.op == .store && placed.any (fun p => s.isOwnMem p.loc)
    -- Stores of a DETCNF launch inside its package are tested word by word before they make any change (R242).
    let now := if direct then placed.filter (fun p => !s.isRemote p.loc) else []
    let s := s.flushFor x m now
    if remote && x.w.spec.isSome then .wait s gone
    else if direct && (x.w.spec.isSome || x.w.pend.any (fun p => p.isAccess || p.inGate) || s.heldFor x m now) then .wait s gone
    else
      let tooMany := if det && m.op.isHeld then s.overflowing placed else []
      let s := s.takeTraps x.key tooMany (fun l => addressTrap detOverflow 0 (vaOf l))
      let placed := placed.filter (fun p => !tooMany.contains p.lane)
      let r := s.storesNow x m now
      let s := r.1.takeTraps x.key r.2 (fun l => addressTrap detConflict 0 (vaOf l))
      let later := placed.filter (fun p => !now.any (fun q => q.lane == p.lane))
      let logged := outs.filterMap (fun o => match o.2 with
        | .logged r => some (o.1, r)
        | _ => none)
      let deferred := outs.filterMap (fun o => match o.2 with
        | .deferred r => some (o.1, r)
        | _ => none)
      let base : ItemBase :=
        ⟨x.w.issues, x.iss.pc, x.iss.hdr, (x.iss.w0, x.iss.w1), s.orderKey x.key x.w, x.w.spec.isSome, s.tick, m.scope, m.bypass⟩
      let leaves := later.map (·.lane) ++ logged.map (·.1) ++ deferred.map (·.1)
      let its := s.items base m.op m.size later
      let s := s.modWarp x.key fun w =>
        let w := w.mapLanes leaves (fun l f => f.emptyEntries (dstOf l))
        let w := w.mapLanes (placed.map (·.lane)) (fun l f => f.keepPage (outcomeOf outs l))
        let w := deferred.foldl (fun w e => w.defer x.w.issues e.1 (accessCause e.2 (vaOf e.1) (dstOf e.1))) w
        { w with pend := w.pend ++ its }
      let s := if logged.isEmpty then s else
        s.postLogged x.key (freeLog x.w.log)
          { w0 := x.iss.w0, w1 := if x.iss.len = 2 then x.iss.w1 else 0, pc := x.iss.pc, hdr := x.iss.hdr,
            mask := logged.map (·.1), addrs := logged.map (fun e => (e.1, BitVec.ofNat 64 (vaOf e.1))),
            data := logged.map (fun e => (e.1, m.data (x.fibre e.1))), dst := logged.map (fun e => (e.1, dstOf e.1)),
            num := x.w.issues, order := s.orderKey x.key x.w, acted := !(later.isEmpty && r.2.length == now.length && deferred.isEmpty) } (firstReason logged)
      let gone := gone ++ tooMany ++ r.2
      let acted := x.active.filter (fun l => !gone.contains l)
      .done s gone (logged.isEmpty && (x.active.isEmpty || !acted.isEmpty)) (!now.isEmpty)

/-- The access of the set's fibres once its waits are over: each traps or is placed. -/
def State.accessChecked (s : State) (x : Ctx) (m : MemAccess) : Act :=
  let detBad := s.isDet x.key && (match m.op with
    | .atom _ ty => ty.isFloat
    | _ => false)
  if detBad then
    .done (x.fibres.foldl (fun s e => s.takeTrap x.key e.1 (match m.space with
      | .memory => addressTrap detUnsupported 0 (m.raw x.w e.2)
      | _ => { cause := detUnsupported, info0 := BitVec.ofNat 32 (m.rawScratch x.w e.2) })) s) x.active false false
  else
    let goes := x.fibres.map (fun e => (e.1, s.goes x m e.2))
    let traps := goes.filterMap (fun e => match e.2 with
      | .trap t => some (e.1, t)
      | g => (s.lockTrap x m.size g).map (fun t => (e.1, t)))
    let s := traps.foldl (fun s e => s.takeTrap x.key e.1 e.2) s
    let gone := traps.map (·.1)
    let rest := goes.filter (fun e => !gone.contains e.1)
    if rest.isEmpty || (s.warp? x.key).isNone then .done s gone false false
    else s.issuePlaced x m gone rest

/-- The issue of a memory access (R248). An atomic or reduction of type .h2 executes at S1 too: R100 checks only the instructions
of its own chapter (DESIGN CHOICE, log entry 120). -/
def State.issueAccess (s : State) (x : Ctx) (m : MemAccess) : Act :=
  if x.active.isEmpty then .next s
  else if x.logWaits || (m.op.fenced && x.w.spec.isSome) then .wait s []
  else if m.op.compared then s.compared x (fun s => s.accessChecked x m)
  else s.accessChecked x m

/-- A memory instruction (R17, R248, R315). -/
def memory (s : State) (m : MemAccess) : Out :=
  .next (s.runIssue (some m.guard) true false m.uses (fun x s => s.issueAccess x m))

end Sys2Proof.Machine
end

