-- ==== Sys2Proof/Machine/Memory.lean ====
section
/-! DEFINITION. Memory instructions: loads and stores, LEA, scratch, atomics, LAUNCH, FENCE, cache operations, ICINV, PREFETCH
(R127 to R133, R185, R248 to R266). -/

namespace Sys2Proof.Machine

/-! ## Plain loads and stores (R129, R130) -/

/-- LD.b8. -/
def execLdB8 (f : FmtM) (s : State) : Out := memory s (loadAccess f 1 .zext)
/-- LD.s8. -/
def execLdS8 (f : FmtM) (s : State) : Out := memory s (loadAccess f 1 .sext8)
/-- LD.b16. -/
def execLdB16 (f : FmtM) (s : State) : Out := memory s (loadAccess f 2 .zext)
/-- LD.s16. -/
def execLdS16 (f : FmtM) (s : State) : Out := memory s (loadAccess f 2 .sext16)
/-- LD.b32. -/
def execLdB32 (f : FmtM) (s : State) : Out := memory s (loadAccess f 4 .zext)
/-- LD.b64. -/
def execLdB64 (f : FmtM) (s : State) : Out := memory s (loadAccess f 8 (.words 2))
/-- LD.b128. -/
def execLdB128 (f : FmtM) (s : State) : Out := memory s (loadAccess f 16 (.words 4))
/-- ST.b8. -/
def execStB8 (f : FmtM) (s : State) : Out := memory s (storeAccess f 1)
/-- ST.b16. -/
def execStB16 (f : FmtM) (s : State) : Out := memory s (storeAccess f 2)
/-- ST.b32. -/
def execStB32 (f : FmtM) (s : State) : Out := memory s (storeAccess f 4)
/-- ST.b64. -/
def execStB64 (f : FmtM) (s : State) : Out := memory s (storeAccess f 8)
/-- ST.b128. -/
def execStB128 (f : FmtM) (s : State) : Out := memory s (storeAccess f 16)

/-! ## Qualified forms (R131 to R133, R265, R266): policy and scope change no value; the policies but bypass of L1 change time alone -/

/-- LDX. -/
def execLdx (f : FmtM) (off : BitVec 24) (size : MemSize) (pol : Policy) (scope : Scope) (s : State) : Out :=
  memory s (ldxAccess f off size pol scope)
/-- STX. -/
def execStx (f : FmtM) (off : BitVec 24) (size : MemSize) (pol : Policy) (scope : Scope) (s : State) : Out :=
  memory s (stxAccess f off size pol scope)
/-- LEA (R133): no access and no check. -/
def execLea (f : FmtM) (off : BitVec 24) (size : MemSize) (s : State) : Out :=
  .next (s.runIssue (some f.g) false false (memUses f [] [vop f.r false 2]) (fun x s =>
    x.eachLane s (fun _ y => y.setV64 f.r
      (wrap64 ((x.w.sval64 f.sbase).toNat + (y.val f.vo).toInt * (if f.scale then (sizeBytes size : Int) else 1) + off.toInt)))))

/-! ## Scratch (R249 to R251) -/

/-- LDS. -/
def execLds (f : FmtM) (s : State) : Out := memory s (scratchLoad f .scratch)
/-- STS. -/
def execSts (f : FmtM) (s : State) : Out := memory s (scratchStore f .scratch)
/-- LDC. -/
def execLdc (f : FmtM) (s : State) : Out := memory s (scratchLoad f .cluster)
/-- STC. -/
def execStc (f : FmtM) (s : State) : Out := memory s (scratchStore f .cluster)

/-! ## Atomics (R253 to R259) -/

/-- ATOM. -/
def execAtom (g : Guard) (d : Reg) (m : AtomAddr) (b : Reg) (fb : Bool) (op : AtomOp) (ty : AtomType) (s : State) : Out :=
  memory s (atomAccess g d m b fb op ty)
/-- ATOMCAS. -/
def execAtomcas (g : Guard) (d : Reg) (m : AtomAddr) (b : Reg) (fb : Bool) (c : Reg) (fc : Bool) (ty : CasType) (pd : Pred)
    (s : State) : Out :=
  memory s (casAccess g d m b fb c fc ty pd)
/-- RED. -/
def execRed (g : Guard) (m : AtomAddr) (b : Reg) (fb : Bool) (op : AtomOp) (ty : AtomType) (s : State) : Out :=
  memory s (redAccess g m b fb op ty)

/-! ## LAUNCH (R185) -/

/-- LAUNCH: the record is read and handed over by LONG_LATENCY_WRITEBACK. -/
def execLaunch (g : Guard) (d a sb : Reg) (fa fb : Bool) (s : State) : Out := memory s (launchAccess g d a sb fa fb)

/-! ## FENCE (R238, R260) -/

/-- FENCE: the warp's buffer entries are flushed and the warp is speculative until the fence resolves; a second FENCE
waits. -/
def execFence (g : Guard) (scope : Scope) (s : State) : Out :=
  .next (s.runIssue (some g) true false {} (fun x s =>
    if x.active.isEmpty then .next s
    else if x.logWaits || x.w.spec.isSome then .wait s []
    else .next ((s.flushWarp x.key).modWarp x.key (fun w => { w with spec := some { num := x.w.issues + 1, scope := scope } }))))

/-! ## Cache operations (R261 to R264) -/

/-- The address that a cache instruction forms in a fibre: the base pair, and vo times the unit. -/
def lineAddr (w : Warp) (f : Fibre) (vo sbase : Reg) (scale : Bool) (unit : Nat) : Nat :=
  (wrap64 ((w.sval64 sbase).toNat + (f.val vo).toInt * (if scale then (unit : Int) else 1))).toNat

/-- Where a cache operation of a fibre acts, as a domain physical address, with the page of its translation: nowhere on a hole, a
fault, a locked range or an address beyond 56 bits. A range is locked to it when the lock holds the addressed byte (DESIGN CHOICE,
log entry 131). -/
def State.linePlace (s : State) (x : Ctx) (f : Fibre) (va : Nat) : Option (Nat × LastPage) :=
  let root := ((s.launch? x.key.lid).map (·.root)).getD 0
  if va / 2 ^ 56 ≠ 0 ∨ (s.clusterLocks (s.coreNo x.key)).any (·.meetsMem root va 1) then none
  else match s.translateFor (s.coreNo x.key) root va .read f.lastPage with
    | .ok pa page => some (pa, page)
    | _ => none
/-- The lanes on which a cache operation acts, each with its place; its translation fills the fibre's last-page register (R219). -/
def State.lineHits (s : State) (x : Ctx) (vo sbase : Reg) (scale : Bool) : List (Lane × Nat × LastPage) :=
  x.fibres.filterMap (fun e => (s.linePlace x e.2 (lineAddr x.w e.2 vo sbase scale 128)).map (fun a => (e.1, a)))
def State.keepPages (s : State) (k : WarpKey) (hits : List (Lane × Nat × LastPage)) : State :=
  hits.foldl (fun s e => s.modFibre k e.1 (fun f => { f with lastPage := some e.2.2 })) s

/-- CCTL (R261): it changes only which copies there are, and is counted under wait-mask bit 9 until it completes. -/
def execCctl (g : Guard) (op : CctlOp) (vo sbase : Reg) (fa scale : Bool) (s : State) : Out :=
  .next (s.runIssue (some g) true false { src := [vop vo fa, sop sbase false 2] } (fun x s =>
    if x.active.isEmpty then .next s
    else if x.logWaits then .wait s []
    else
      let hits := s.lineHits x vo sbase scale
      let s := hits.foldl (fun s e =>
        if op = .l1inv ∧ packageOf e.2.1 = s.domid then s.modCore (s.coreNo x.key) (·.dropLine (lineOf (localOf e.2.1))) else s)
        (s.keepPages x.key hits)
      .next (s.modWarp x.key (fun w => { w with pend := w.pend ++ hits.map (fun e =>
        { num := x.w.issues, lane := e.1, kind := .cacheOp, pc := x.iss.pc, hdr := x.iss.hdr }) }))))

/-- PREFETCH (R264): it changes no value and takes no trap. A line of this package's memory is leased and comes into the core's L1,
but not where the home slice alone is named: what L2 holds is no state of its own. Stage 1 of the throttle order drops it (R345;
DEDUCED, log entry 132). -/
def execPrefetch (g : Guard) (sliceOnly : Bool) (vo sbase : Reg) (fa scale : Bool) (s : State) : Out :=
  .next (s.runIssue (some g) true false { src := [vop vo fa, sop sbase false 2] } (fun x s =>
    if x.active.isEmpty then .next s
    else if x.logWaits then .wait s []
    else if 1 ≤ s.grid.stage then .next s
    else
      let c := s.coreNo x.key
      let hits := s.lineHits x vo sbase scale
      .next (hits.foldl (fun s e =>
        let line := lineOf (localOf e.2.1)
        if sliceOnly || !s.isOwnMem (.mem e.2.1) || s.poisoned (line * 128) 128 || (s.core c).bypasses false then s
        else (s.leaseCore c line).copyIn c line) (s.keepPages x.key hits))))

/-- ICINV (R262): each fibre's address is checked; the warp releases and waits until ICINV_COMPLETE. -/
def execIcinv (g : Guard) (scope : Scope) (vo sbase : Reg) (fa scale : Bool) (s : State) : Out :=
  .next (s.runIssue (some g) true false { src := [vop vo fa, sop sbase false 2] } (fun x s =>
    if x.active.isEmpty then .next s
    else if x.w.waiting ≠ .none then (if x.w.released then .next s else .wait s [])
    else if x.logWaits then .wait s []
    else
      let goes := x.fibres.map (fun e => (e.1, effAddr (lineAddr x.w e.2 vo sbase scale 4) 4))
      let traps := goes.filterMap (fun e => match e.2 with
        | .trap t => some (e.1, t)
        | _ => none)
      let pages := goes.filterMap (fun e => match e.2 with
        | .mem va => some (va / 2 ^ 16)
        | _ => none)
      let s := traps.foldl (fun s e => s.takeTrap x.key e.1 e.2) s
      if pages.isEmpty then .done s (traps.map (·.1)) false false
      else
        .wait ((s.flushWarp x.key).modWarp x.key (fun w => { w with waiting := .icinv scope pages.eraseDups, released := false }))
          (traps.map (·.1))))

end Sys2Proof.Machine
end

