-- ==== Sys2Proof/Machine/Dispatch.lean ====
section
/-! DEFINITION. The dispatch of an instruction to its meaning: one arm per constructor. -/

namespace Sys2Proof.Machine

/-- What an instruction, or a step of another agent, does to the state. -/
def exec (i : Instr) (s : State) : Host.Outcome State Fault Refusal :=
  match i with
  | .iadd f => Sys2Proof.Machine.execIadd f s
  | .iaddi f => Sys2Proof.Machine.execIaddi f s
  | .isub f => Sys2Proof.Machine.execIsub f s
  | .iadd64 f => Sys2Proof.Machine.execIadd64 f s
  | .isub64 f => Sys2Proof.Machine.execIsub64 f s
  | .imul f => Sys2Proof.Machine.execImul f s
  | .imulhiS32 f => Sys2Proof.Machine.execImulhiS32 f s
  | .imulhiN32 f => Sys2Proof.Machine.execImulhiN32 f s
  | .imulwS32 f => Sys2Proof.Machine.execImulwS32 f s
  | .imulwN32 f => Sys2Proof.Machine.execImulwN32 f s
  | .idivS32 f => Sys2Proof.Machine.execIdivS32 f s
  | .idivN32 f => Sys2Proof.Machine.execIdivN32 f s
  | .iremS32 f => Sys2Proof.Machine.execIremS32 f s
  | .iremN32 f => Sys2Proof.Machine.execIremN32 f s
  | .iminS32 f => Sys2Proof.Machine.execIminS32 f s
  | .iminN32 f => Sys2Proof.Machine.execIminN32 f s
  | .imaxS32 f => Sys2Proof.Machine.execImaxS32 f s
  | .imaxN32 f => Sys2Proof.Machine.execImaxN32 f s
  | .iabs f => Sys2Proof.Machine.execIabs f s
  | .iaddsatS32 f => Sys2Proof.Machine.execIaddsatS32 f s
  | .isubsatS32 f => Sys2Proof.Machine.execIsubsatS32 f s
  | .idot4S8 f => Sys2Proof.Machine.execIdot4S8 f s
  | .and f => Sys2Proof.Machine.execAnd f s
  | .or f => Sys2Proof.Machine.execOr f s
  | .xor f => Sys2Proof.Machine.execXor f s
  | .andn f => Sys2Proof.Machine.execAndn f s
  | .andi f => Sys2Proof.Machine.execAndi f s
  | .ori f => Sys2Proof.Machine.execOri f s
  | .xori f => Sys2Proof.Machine.execXori f s
  | .shl f => Sys2Proof.Machine.execShl f s
  | .shr f => Sys2Proof.Machine.execShr f s
  | .sar f => Sys2Proof.Machine.execSar f s
  | .rotl f => Sys2Proof.Machine.execRotl f s
  | .shli f => Sys2Proof.Machine.execShli f s
  | .shri f => Sys2Proof.Machine.execShri f s
  | .sari f => Sys2Proof.Machine.execSari f s
  | .popc f => Sys2Proof.Machine.execPopc f s
  | .clz f => Sys2Proof.Machine.execClz f s
  | .brev f => Sys2Proof.Machine.execBrev f s
  | .bfxN32 f => Sys2Proof.Machine.execBfxN32 f s
  | .bfxS32 f => Sys2Proof.Machine.execBfxS32 f s
  | .bfi f => Sys2Proof.Machine.execBfi f s
  | .icmp f => Sys2Proof.Machine.execIcmp f s
  | .pcomb g pd pa pb table => Sys2Proof.Machine.execPcomb g pd pa pb table s
  | .pick f => Sys2Proof.Machine.execPick f s
  | .pread g d => Sys2Proof.Machine.execPread g d s
  | .pwrite g a b fa fb => Sys2Proof.Machine.execPwrite g a b fa fb s
  | .mov f => Sys2Proof.Machine.execMov f s
  | .movs g d sb fb => Sys2Proof.Machine.execMovs g d sb fb s
  | .salu op d a b => Sys2Proof.Machine.execSalu op d a b s
  | .salui op d a imm => Sys2Proof.Machine.execSalui op d a imm s
  | .srget g d n => Sys2Proof.Machine.execSrget g d n s
  | .srset g a n => Sys2Proof.Machine.execSrset g a n s
  | .movi g d imm => Sys2Proof.Machine.execMovi g d imm s
  | .smovi g d imm => Sys2Proof.Machine.execSmovi g d imm s
  | .imad f c fc var => Sys2Proof.Machine.execImad f c fc var s
  | .fadd f => Sys2Proof.Machine.execFadd f s
  | .fsub f => Sys2Proof.Machine.execFsub f s
  | .fmul f => Sys2Proof.Machine.execFmul f s
  | .ffma f => Sys2Proof.Machine.execFfma f s
  | .ffms f => Sys2Proof.Machine.execFfms f s
  | .ffnma f => Sys2Proof.Machine.execFfnma f s
  | .fmin f => Sys2Proof.Machine.execFmin f s
  | .fmax f => Sys2Proof.Machine.execFmax f s
  | .fcmp f => Sys2Proof.Machine.execFcmp f s
  | .fabs f => Sys2Proof.Machine.execFabs f s
  | .fneg f => Sys2Proof.Machine.execFneg f s
  | .fclass f => Sys2Proof.Machine.execFclass f s
  | .fscale f => Sys2Proof.Machine.execFscale f s
  | .fround g d a fa mode => Sys2Proof.Machine.execFround g d a fa mode s
  | .faddH2 f => Sys2Proof.Machine.execFaddH2 f s
  | .fmulH2 f => Sys2Proof.Machine.execFmulH2 f s
  | .ffmaH2 f => Sys2Proof.Machine.execFfmaH2 f s
  | .fminH2 f => Sys2Proof.Machine.execFminH2 f s
  | .fmaxH2 f => Sys2Proof.Machine.execFmaxH2 f s
  | .fcmpH2 f => Sys2Proof.Machine.execFcmpH2 f s
  | .faddB2 f => Sys2Proof.Machine.execFaddB2 f s
  | .fmulB2 f => Sys2Proof.Machine.execFmulB2 f s
  | .ffmaB2 f => Sys2Proof.Machine.execFfmaB2 f s
  | .fminB2 f => Sys2Proof.Machine.execFminB2 f s
  | .fmaxB2 f => Sys2Proof.Machine.execFmaxB2 f s
  | .fcmpB2 f => Sys2Proof.Machine.execFcmpB2 f s
  | .frcp f => Sys2Proof.Machine.execFrcp f s
  | .frsq f => Sys2Proof.Machine.execFrsq f s
  | .fsqrt f => Sys2Proof.Machine.execFsqrt f s
  | .fex2 f => Sys2Proof.Machine.execFex2 f s
  | .flg2 f => Sys2Proof.Machine.execFlg2 f s
  | .fsin f => Sys2Proof.Machine.execFsin f s
  | .fcos f => Sys2Proof.Machine.execFcos f s
  | .ftanh f => Sys2Proof.Machine.execFtanh f s
  | .cvt g d a fa dst src => Sys2Proof.Machine.execCvt g d a fa dst src s
  | .cvtpk g d a fa sel => Sys2Proof.Machine.execCvtpk g d a fa sel s
  | .fdot2B2 f => Sys2Proof.Machine.execFdot2B2 f s
  | .cvtx g d a fa dst src mode sat useSlot slot => Sys2Proof.Machine.execCvtx g d a fa dst src mode sat useSlot slot s
  | .ffma4 f c fc mode ty np nc => Sys2Proof.Machine.execFfma4 f c fc mode ty np nc s
  | .nop g => Sys2Proof.Machine.execNop g s
  | .bra g disp => Sys2Proof.Machine.execBra g disp s
  | .brx g a fa => Sys2Proof.Machine.execBrx g a fa s
  | .bru g sa nz fs disp => Sys2Proof.Machine.execBru g sa nz fs disp s
  | .call g fc disp => Sys2Proof.Machine.execCall g fc disp s
  | .callx g fc a fa => Sys2Proof.Machine.execCallx g fc a fa s
  | .ret g => Sys2Proof.Machine.execRet g s
  | .spawn g d wo disp => Sys2Proof.Machine.execSpawn g d wo disp s
  | .quit g => Sys2Proof.Machine.execQuit g s
  | .yieldTurn g => Sys2Proof.Machine.execYieldTurn g s
  | .trap g code => Sys2Proof.Machine.execTrap g code s
  | .bkpt g code => Sys2Proof.Machine.execBkpt g code s
  | .tret g => Sys2Proof.Machine.execTret g s
  | .ldB8 f => Sys2Proof.Machine.execLdB8 f s
  | .ldS8 f => Sys2Proof.Machine.execLdS8 f s
  | .ldB16 f => Sys2Proof.Machine.execLdB16 f s
  | .ldS16 f => Sys2Proof.Machine.execLdS16 f s
  | .ldB32 f => Sys2Proof.Machine.execLdB32 f s
  | .ldB64 f => Sys2Proof.Machine.execLdB64 f s
  | .ldB128 f => Sys2Proof.Machine.execLdB128 f s
  | .stB8 f => Sys2Proof.Machine.execStB8 f s
  | .stB16 f => Sys2Proof.Machine.execStB16 f s
  | .stB32 f => Sys2Proof.Machine.execStB32 f s
  | .stB64 f => Sys2Proof.Machine.execStB64 f s
  | .stB128 f => Sys2Proof.Machine.execStB128 f s
  | .lds f => Sys2Proof.Machine.execLds f s
  | .sts f => Sys2Proof.Machine.execSts f s
  | .ldc f => Sys2Proof.Machine.execLdc f s
  | .stc f => Sys2Proof.Machine.execStc f s
  | .ldx f off size pol scope => Sys2Proof.Machine.execLdx f off size pol scope s
  | .stx f off size pol scope => Sys2Proof.Machine.execStx f off size pol scope s
  | .lea f off size => Sys2Proof.Machine.execLea f off size s
  | .atom g d m b fb op ty => Sys2Proof.Machine.execAtom g d m b fb op ty s
  | .atomcas g d m b fb c fc ty pd => Sys2Proof.Machine.execAtomcas g d m b fb c fc ty pd s
  | .red g m b fb op ty => Sys2Proof.Machine.execRed g m b fb op ty s
  | .fence g scope => Sys2Proof.Machine.execFence g scope s
  | .cctl g op vo sbase fa scale => Sys2Proof.Machine.execCctl g op vo sbase fa scale s
  | .icinv g scope vo sbase fa scale => Sys2Proof.Machine.execIcinv g scope vo sbase fa scale s
  | .prefetch g sliceOnly vo sbase fa scale => Sys2Proof.Machine.execPrefetch g sliceOnly vo sbase fa scale s
  | .shflIdx f => Sys2Proof.Machine.execShflIdx f s
  | .shflUp f => Sys2Proof.Machine.execShflUp f s
  | .shflDown f => Sys2Proof.Machine.execShflDown f s
  | .shflXor f => Sys2Proof.Machine.execShflXor f s
  | .vote g pd mode ps => Sys2Proof.Machine.execVote g pd mode ps s
  | .ballot g d ps => Sys2Proof.Machine.execBallot g d ps s
  | .matchLanes f => Sys2Proof.Machine.execMatchLanes f s
  | .elect g pd d => Sys2Proof.Machine.execElect g pd d s
  | .redux f op ty mode => Sys2Proof.Machine.execRedux f op ty mode s
  | .scan f op ty mode ex => Sys2Proof.Machine.execScan f op ty mode ex s
  | .readlane g d a sb fa fb => Sys2Proof.Machine.execReadlane g d a sb fa fb s
  | .barArrive g o => Sys2Proof.Machine.execBarArrive g o s
  | .barWait g o => Sys2Proof.Machine.execBarWait g o s
  | .barSync g o => Sys2Proof.Machine.execBarSync g o s
  | .barInit g a o => Sys2Proof.Machine.execBarInit g a o s
  | .barDrop g o => Sys2Proof.Machine.execBarDrop g o s
  | .barTest g pd o => Sys2Proof.Machine.execBarTest g pd o s
  | .deqPush g vs a fa => Sys2Proof.Machine.execDeqPush g vs a fa s
  | .deqPop g d vs => Sys2Proof.Machine.execDeqPop g d vs s
  | .deqSteal g d vs => Sys2Proof.Machine.execDeqSteal g d vs s
  | .launch g d a sb fa fb => Sys2Proof.Machine.execLaunch g d a sb fa fb s
  | .regGrow g n => Sys2Proof.Machine.execRegGrow g n s
  | .regShrink g n => Sys2Proof.Machine.execRegShrink g n s
  | .step g d sb fb => Sys2Proof.Machine.execStep g d sb fb s
  | .tcfg g t sb fb => Sys2Proof.Machine.execTcfg g t sb fb s
  | .tstat g d t => Sys2Proof.Machine.execTstat g d t s
  | .tzero g t => Sys2Proof.Machine.execTzero g t s
  | .tfree g t => Sys2Proof.Machine.execTfree g t s
  | .mma g sp ta tb slot opn cls neg => Sys2Proof.Machine.execMma g sp ta tb slot opn cls neg s
  | .epi g sp t dst act fslot rsc csc rbi cbi pol => Sys2Proof.Machine.execEpi g sp t dst act fslot rsc csc rbi cbi pol s
  | .copy g sp t src dst mode esz pol => Sys2Proof.Machine.execCopy g sp t src dst mode esz pol s
  | .tcvt g m mode ta t => Sys2Proof.Machine.execTcvt g m mode ta t s
  | .tmovGet g d t b fb => Sys2Proof.Machine.execTmovGet g d t b fb s
  | .tmovSet g v t b fa fb => Sys2Proof.Machine.execTmovSet g v t b fa fb s
  | .namePub g t sb fb => Sys2Proof.Machine.execNamePub g t sb fb s
  | .nameGet g t sb fb => Sys2Proof.Machine.execNameGet g t sb fb s
  | .nameRetire g sb fb => Sys2Proof.Machine.execNameRetire g sb fb s
  | .nameDrop g t => Sys2Proof.Machine.execNameDrop g t s
  | .pwrHint g h => Sys2Proof.Machine.execPwrHint g h s
  | .lanechk g d groups => Sys2Proof.Machine.execLanechk g d groups s
  | .longLatencyWriteback lid w num lane => Sys2Proof.Machine.execLongLatencyWriteback lid w num lane s
  | .steeringAdoption lid w bad => Sys2Proof.Machine.execSteeringAdoption lid w bad s
  | .domainBarrierArrival lid index kind value => Sys2Proof.Machine.execDomainBarrierArrival lid index kind value s
  | .domainBarrierCompletion lid index order => Sys2Proof.Machine.execDomainBarrierCompletion lid index order s
  | .launchRecordRead queue others => Sys2Proof.Machine.execLaunchRecordRead queue others s
  | .qctlWrite queue v => Sys2Proof.Machine.execQctlWrite queue v s
  | .detlidWrite v => Sys2Proof.Machine.execDetlidWrite v s
  | .viollidWrite v => Sys2Proof.Machine.execViollidWrite v s
  | .admviolRead cluster => Sys2Proof.Machine.execAdmviolRead cluster s
  | .regGrowGrant core => Sys2Proof.Machine.execRegGrowGrant core s
  | .stallSwapOut core => Sys2Proof.Machine.execStallSwapOut core s
  | .stepBoundary lid => Sys2Proof.Machine.execStepBoundary lid s
  | .checkpointCopyDone copy written => Sys2Proof.Machine.execCheckpointCopyDone copy written s
  | .bankroleWrite core high v => Sys2Proof.Machine.execBankroleWrite core high v s
  | .unitRetirement core kind unit => Sys2Proof.Machine.execUnitRetirement core kind unit s
  | .evacuationLineCopy t bad => Sys2Proof.Machine.execEvacuationLineCopy t bad s
  | .unitFailed t unit sectors => Sys2Proof.Machine.execUnitFailed t unit sectors s
  | .pageWalk die root va => Sys2Proof.Machine.execPageWalk die root va s
  | .tlbiGo v => Sys2Proof.Machine.execTlbiGo v s
  | .leaseRecall line core => Sys2Proof.Machine.execLeaseRecall line core s
  | .fenceResolve lid w => Sys2Proof.Machine.execFenceResolve lid w s
  | .speculativeRollback lid w line => Sys2Proof.Machine.execSpeculativeRollback lid w line s
  | .detAtomicApply lid => Sys2Proof.Machine.execDetAtomicApply lid s
  | .storeGateRelease lid w num lane => Sys2Proof.Machine.execStoreGateRelease lid w num lane s
  | .icinvComplete lid w => Sys2Proof.Machine.execIcinvComplete lid w s
  | .commandAdmission cluster => Sys2Proof.Machine.execCommandAdmission cluster s
  | .engineStop core cmd upto => Sys2Proof.Machine.execEngineStop core cmd upto s
  | .engineEnd core cmd => Sys2Proof.Machine.execEngineEnd core cmd s
  | .columnResidueMismatch core column => Sys2Proof.Machine.execColumnResidueMismatch core column s
  | .mmaCompletion core cmd energy => Sys2Proof.Machine.execMmaCompletion core cmd energy s
  | .epiCompletion core cmd energy => Sys2Proof.Machine.execEpiCompletion core cmd energy s
  | .copyCompletion core cmd energy => Sys2Proof.Machine.execCopyCompletion core cmd energy s
  | .tcvtCompletion core cmd => Sys2Proof.Machine.execTcvtCompletion core cmd s
  | .faultRecordPost die => Sys2Proof.Machine.execFaultRecordPost die s
  | .fqctlWrite die v => Sys2Proof.Machine.execFqctlWrite die v s
  | .fqrespResume die tag => Sys2Proof.Machine.execFqrespResume die tag s
  | .fqrespDeliver die tag => Sys2Proof.Machine.execFqrespDeliver die tag s
  | .fqrespEnd die tag => Sys2Proof.Machine.execFqrespEnd die tag s
  | .serviceSwapOut lid g => Sys2Proof.Machine.execServiceSwapOut lid g s
  | .swapreq v => Sys2Proof.Machine.execSwapreq v s
  | .swapOut lid g => Sys2Proof.Machine.execSwapOut lid g s
  | .droopReport cluster suspect => Sys2Proof.Machine.execDroopReport cluster suspect s
  | .selfTest core groups => Sys2Proof.Machine.execSelfTest core groups s
  | .fictlWrite v => Sys2Proof.Machine.execFictlWrite v s
  | .telemetryFrame frame => Sys2Proof.Machine.execTelemetryFrame frame s
  | .stepFrame frame => Sys2Proof.Machine.execStepFrame frame s
  | .gridConfigWrite offset v => Sys2Proof.Machine.execGridConfigWrite offset v s
  | .throttleInterval power => Sys2Proof.Machine.execThrottleInterval power s
  | .laneGroupRetention core used => Sys2Proof.Machine.execLaneGroupRetention core used s
  | .clusterRetentionEntry cluster => Sys2Proof.Machine.execClusterRetentionEntry cluster s
  | .clusterWake cluster mismatches => Sys2Proof.Machine.execClusterWake cluster mismatches s
  | .cretmissRead cluster => Sys2Proof.Machine.execCretmissRead cluster s
  | .peerRequest src core seq kind addr epoch late more op ty data => Sys2Proof.Machine.execPeerRequest src core seq kind addr epoch late more op ty data s
  | .peerResponse core dest seq epoch data => Sys2Proof.Machine.execPeerResponse core dest seq epoch data s
  | .peerFaultResponse core dest seq epoch cause reason => Sys2Proof.Machine.execPeerFaultResponse core dest seq epoch cause reason s
  | .peerTimeout core dest seq => Sys2Proof.Machine.execPeerTimeout core dest seq s
  | .pflogCtlWrite v => Sys2Proof.Machine.execPflogCtlWrite v s
  | .interestMsg src tensor tile iter life => Sys2Proof.Machine.execInterestMsg src tensor tile iter life s
  | .tileMsg tensor tile iter control slot image up => Sys2Proof.Machine.execTileMsg tensor tile iter control slot image up s
  | .endMsg tensor tile iter retired reason => Sys2Proof.Machine.execEndMsg tensor tile iter retired reason s
  | .retireMsg tensor tile iter => Sys2Proof.Machine.execRetireMsg tensor tile iter s
  | .restoreComplete buddy peer => Sys2Proof.Machine.execRestoreComplete buddy peer s
  | .measExtend v => Sys2Proof.Machine.execMeasExtend v s
  | .maarQuoteRequest nonce sel => Sys2Proof.Machine.execMaarQuoteRequest nonce sel s
  | .iftGo v => Sys2Proof.Machine.execIftGo v s
  | .iftComplete failed aborted => Sys2Proof.Machine.execIftComplete failed aborted s
  | .bootStage stage key signature image trained tested => Sys2Proof.Machine.execBootStage stage key signature image trained tested s
  | .hostWindowAccess window offset size store data => Sys2Proof.Machine.execHostWindowAccess window offset size store data s
  | .registerWrite offset v => Sys2Proof.Machine.execRegisterWrite offset v s
  | .unassignedOpcodeIssue w => Sys2Proof.Machine.execUnassignedOpcodeIssue w s
  | .clauseEntry => Sys2Proof.Machine.execClauseEntry s
  | .launchStart => Sys2Proof.Machine.execLaunchStart s
  | .gangPlacement => Sys2Proof.Machine.execGangPlacement s
  | .completionWordWrite => Sys2Proof.Machine.execCompletionWordWrite s
  | .detcntRead => Sys2Proof.Machine.execDetcntRead s
  | .violcntRead => Sys2Proof.Machine.execViolcntRead s
  | .serviceLevelChange => Sys2Proof.Machine.execServiceLevelChange s
  | .tlbiComplete => Sys2Proof.Machine.execTlbiComplete s
  | .horizonPublish => Sys2Proof.Machine.execHorizonPublish s
  | .admissionInterval => Sys2Proof.Machine.execAdmissionInterval s
  | .stepAcknowledgement => Sys2Proof.Machine.execStepAcknowledgement s
  | .linkLost => Sys2Proof.Machine.execLinkLost s
  | .shedDeadline => Sys2Proof.Machine.execShedDeadline s
  | .backstop => Sys2Proof.Machine.execBackstop s
  | .frameerrRead => Sys2Proof.Machine.execFrameerrRead s
  | .drain => Sys2Proof.Machine.execDrain s
  | .powerReturn => Sys2Proof.Machine.execPowerReturn s
  | .holdExpiry => Sys2Proof.Machine.execHoldExpiry s
  | .tsctlFlush => Sys2Proof.Machine.execTsctlFlush s
  | .namerefRead => Sys2Proof.Machine.execNamerefRead s
  | .faceExpiry => Sys2Proof.Machine.execFaceExpiry s
  | .restoreGo => Sys2Proof.Machine.execRestoreGo s
  | .quoteRequest => Sys2Proof.Machine.execQuoteRequest s
  | .powerGood => Sys2Proof.Machine.execPowerGood s
  | .discardedFrame => Sys2Proof.Machine.execDiscardedFrame s
  | .quoteComplete => Sys2Proof.Machine.execQuoteComplete s

end Sys2Proof.Machine
end

