-- ==== Sys2Proof/Machine/Place.lean ====
section
/-! DEFINITION. The placing of one instruction as the next to run: what stands for the load of a program from outside
(R174, R181 to R184), in the smallest launch that can run it. -/

namespace Sys2Proof.Machine

/-- Where the one clause is placed: its header's byte address in near memory of die 0. -/
def placeAt : Nat := 0x10000

/-- The launch that the instruction runs in: one group of one warp with one fibre. -/
def placedLaunch : Launch :=
  { record := { codebase := BitVec.ofNat 64 placeAt, regs := 64, fibres := 1, cls := 3, fmt := List.replicate 8 0,
                pred := List.replicate 4 0 }
    root := 0
    dies := [0]
    placed := 1 }

/-- The header of the clause: N words of class 3, with no wait. -/
def placedHeader (n : Nat) : Word := BitVec.ofNat 32 (0x30 + n)

/-- The instruction of bits `w`, 64 at most, placed as the next to issue: on the agenda its warp stands first. -/
def State.placeWord (s : State) (w : Nat) : State :=
  let w0 := BitVec.ofNat 32 w
  let w1 := BitVec.ofNat 32 (w / 2 ^ 32)
  let h := placedHeader 2
  let f : Fibre := { pc := 1, hdr := 0, inside := true, body := [w0, w1], hword := h, gen := genSeed 0 0 }
  { s with
    level := if s.level = 0 then 2 else s.level
    agenda := [.warp ⟨0, 0⟩]
    mem := memSetBytes s.mem placeAt (bytesOf 4 h.toNat ++ bytesOf 4 w0.toNat ++ bytesOf 4 w1.toNat)
    launches := [(0, placedLaunch)]
    dies := [(0, { tlb := [⟨0, 1, 1, true, true, true⟩] })]
    groups := [(⟨0, 0⟩, { place := .resident 0 })]
    warps := [(⟨0, 0⟩, { slots := [(0, f)], warpid := 0 })] }

end Sys2Proof.Machine
end

