-- ==== Sys2Proof/Machine/Schedule.lean ====
section
/-! DEFINITION. What a warp does when it moves next: the set it chooses, the word it fetched with its clause, and the
instruction that word decodes to (R64, R144, R145); and which agent moves next when the agenda is empty. -/

namespace Sys2Proof.Machine

/-- What a warp would do now. -/
inductive Prep where
  /-- Nothing: it waits. -/
  | idle (s : State)
  /-- An instruction, or the entry of a clause, with the issue in hand. -/
  | run (s : State) (i : Instr)

/-- ATOMCAS with a success predicate keeps its warp from its next issue until the predicate is written (R257). -/
def Warp.casHeld (w : Warp) : Bool :=
  w.pend.any (fun p => match p.kind with
    | .atom _ _ (some _) => true
    | _ => false) ||
  w.log.any (fun e => e.2.tag != 0 && match (decodeWords e.2.w0 e.2.w1).toOption with
    | some (.atomcas _ _ _ _ _ _ _ _ pd) => pd.val != 7
    | _ => false)

/-- The word of a clause at an offset from its header, 0 past its end. -/
def Fibre.word (f : Fibre) (i : Nat) : Word := f.body.getD i 0

/-- The instruction that a set's fibres stand at: its words were fetched with the clause. Fibres of one key may have fetched
them at different times or under different headers; the words of the lowest lane are issued for all (DESIGN CHOICE, log entry
113). A two-word opcode that is issued as the clause's last word, which R51 refuses only where its walk met it as a first word, takes
0 for its second word, and its fibres go on at PC + 2 (DESIGN CHOICE, log entry 152). -/
def State.prepareWord (s : State) (k : WarpKey) (sel : Sel) (f : Fibre) : Prep :=
  let at_ := (f.pc - f.hdr).toNat - 1
  let w0 := f.word at_
  let w1 := f.word (at_ + 1)
  let n := wordCount w0
  let iss : Issue := ⟨k, sel, f.pc, f.hdr, n, w0, w1⟩
  let s := (s.holdTurn k).modWarp k (fun w => { w with mask := 0 })
  match decodeWords w0 w1 with
  | .ok i => .run { s with issue := some iss } i
  | .error _ => .idle { ({ s with issue := some iss } : State).encodingTrap reservedField w0 (if n = 2 then w1 else 0) with issue := none }

/-- What a warp does when it is its move (R144, R145): at a header it first adopts a new steering table (R142), then enters; inside
a clause, fibres that must fetch it again do so, and the set waits for the wait mask, whose bit 10 keeps flushing (R53). -/
def State.prepare (s : State) (k : WarpKey) : Prep :=
  match s.warp? k with
  | none => .idle s
  | some w =>
    if !s.canIssue k || !s.hasTurn k || w.casHeld then .idle s
    else
      match (match w.sel with
        | some sel => some (sel, w.serial)
        | none => w.choose) with
      | none => .idle s
      | some (sel, serial) =>
        let fibres := sel.lanes.filterMap w.fibre?
        match fibres.head? with
        | none => .idle (s.setWarp k { w with sel := none })
        | some f =>
          let s' := s.setWarp k { w with serial := serial }
          let entry := fun (g : Fibre) => Prep.run { s'.holdTurn k with issue := some ⟨k, sel, g.pc, g.hdr, 1, 0, 0⟩ } .clauseEntry
          if !f.inside then
            if w.oldSteering.isSome && w.spec.isNone then .run s (.steeringAdoption k.lid k.w []) else entry f
          else match fibres.find? (·.refetch) with
          | some g => entry g
          | none =>
            if w.mask ≠ 0 ∧ !s.maskMet k w then .idle (if w.mask.getLsbD 10 then s.flushWarp k else s)
            else s'.prepareWord k sel f

/-! ## When the agenda is empty -/

/-- An item's own step: a load's result, an atomic's value or a long-latency result, or a store on its way out. -/
def Pend.turn (k : WarpKey) (p : Pend) : Turn :=
  match p.kind with
  | .store .. | .red .. | .cacheOp | .arrive .. | .held _ => .event (.storeGateRelease k.lid k.w p.num p.lane)
  | _ => .event (.longLatencyWriteback k.lid k.w p.num p.lane)

/-- What could move for a warp. -/
def Warp.turns (w : Warp) (k : WarpKey) : List Turn :=
  [.warp k] ++ w.pend.map (·.turn k) ++ (if w.spec.isSome then [.event (.fenceResolve k.lid k.w)] else []) ++
  (if w.oldSteering.isSome then [.event (.steeringAdoption k.lid k.w [])] else []) ++
  (match w.waiting with
  | .icinv _ _ => [.event (.icinvComplete k.lid k.w)]
  | .step => [.event (.stepBoundary k.lid)]
  | _ => [])

/-- What could move for an engine command: its admission, its completion, or what halts it. -/
def Command.turns (c : Nat) (x : Command) : List Turn :=
  let stop := Turn.event (.engineStop c x.num x.done)
  match x.stage, x.instr with
  | .waiting, _ => [.event (.commandAdmission (c / 32))]
  | .admitted, .mma .. => [.event (.mmaCompletion c x.num x.params.energy), stop]
  | .admitted, .epi .. => [.event (.epiCompletion c x.num x.params.energy), stop]
  | .admitted, .copy .. => [.event (.copyCompletion c x.num x.params.energy), stop]
  | .admitted, _ => [.event (.tcvtCompletion c x.num)]
  | _, _ => []
/-- What could move for a core: its commands, a grant that a warp waits for, and the end of a stall. -/
def State.coreTurns (s : State) (c : Nat) (k : CoreState) : List Turn :=
  k.cmds.flatMap (fun x => x.2.turns c) ++ [.event (.regGrowGrant c)] ++ (if s.stalled c then [.event (.stallSwapOut c)] else [])
/-- What could move for a group: its swap-out. -/
def State.groupTurns (s : State) (g : GroupKey) : List Turn :=
  if s.mayLeave g then [.event (.swapOut g.lid g.g)] else []
/-- What could move in the front end and for its launches. -/
def State.launchTurns (s : State) : List Turn :=
  (s.front.queues.map (fun q => Turn.event (.launchRecordRead q.1 0))) ++
  (if s.launches.isEmpty then [] else [.event .launchStart, .event .gangPlacement, .event .horizonPublish]) ++
  (if s.front.finished.isEmpty then [] else [.event .completionWordWrite]) ++
  (s.launches.filter (fun l => l.2.det)).map (fun l => Turn.event (.detAtomicApply l.1))
/-- The interleave tables (R207). -/
def tables : List TableId := (List.range 4).flatMap (fun d => [.slice (Fin.ofNat 4 d), .channel (Fin.ofNat 4 d)]) ++ [.far]
/-- What could move in the blocks of the control region. -/
def State.blockTurns (s : State) : List Turn :=
  (s.dies.filter (fun d => !d.2.fq.waiting.isEmpty)).map (fun d => Turn.event (.faultRecordPost d.1)) ++
  (if s.tlbi.busy then [.event .tlbiComplete] else []) ++ (if s.boot.atBusy then [.event .quoteComplete] else []) ++
  (if s.grid.acks.isEmpty then [] else [.event .stepAcknowledgement]) ++
  (if s.cores.any (fun c => c.2.cmds.any (fun x => x.2.stage == .waiting)) then [.event .admissionInterval] else []) ++
  s.ck.pending.map (fun c => Turn.event (.checkpointCopyDone c s.ck.shards.length)) ++
  (s.clusters.filter (fun c => c.2.retained)).map (fun c => Turn.event (.clusterWake c.1 0)) ++
  (if s.retirements.any (fun r => s.mayRetire r) then [.event (.unitRetirement 0 0 32)] else []) ++
  (tables.filter (fun t => (s.evacuating t).isSome)).map (fun t => Turn.event (.evacuationLineCopy t false))

/-- Everything that could move by itself. What comes from outside (the host, other packages, the grid, the part's own
failures) stands on the agenda. -/
def State.turns (s : State) : List Turn :=
  s.warps.flatMap (fun e => e.2.turns e.1) ++ s.cores.flatMap (fun c => s.coreTurns c.1 c.2) ++
  s.groups.flatMap (fun g => s.groupTurns g.1) ++ s.launchTurns ++ s.blockTurns

/-- A chosen turn made definite: what halts a command depends on the iteration that faults. -/
def State.definite (s : State) (t : Turn) : Turn :=
  match t with
  | .event (.engineStop c n m) => .event ((s.haltEvent c n).getD (.engineStop c n m))
  | t => t
/-- Who moves next when the agenda is empty: each that could move in turn, by the count of steps. -/
def State.nextMove (s : State) : Option Turn :=
  let ts := s.turns
  (ts[s.tick % ts.length]?).map s.definite

/-- An outcome with no issue in hand. -/
def endIssue (o : Out) : Out :=
  match o with
  | .next s => .next { s with issue := none }
  | .fault r => .fault r
  | .refused r => .refused r

end Sys2Proof.Machine
end

