-- ==== Sys2Proof/Machine/Step.lean ====
section
/-! DEFINITION. One step of the package: whoever stands first on the agenda moves, or, when it is empty, whoever is next. -/

namespace Sys2Proof.Machine

/-- A warp or another agent moves. -/
def State.move (s : State) (t : Turn) : Out :=
  match t with
  | .event i => endIssue (exec i { s with issue := none })
  | .warp k => match s.prepare k with
    | .idle s => .next s
    | .run s i => endIssue (exec i s)

/-- One step: stops and free turns are settled, then the next on the agenda moves. -/
def step (s : State) : Host.Outcome State Fault Refusal :=
  match s.agenda with
  | t :: rest => ({ s with agenda := rest, tick := s.tick + 1 } : State).settled.move t
  | [] => match s.nextMove with
    | some t => ({ s with tick := s.tick + 1 } : State).settled.move t
    | none => .next { s with tick := s.tick + 1 }

/-- The state with an instruction, whose bits are `w`, where the next step fetches: a launch with one warp whose fibre has
entered a clause that holds the instruction's words, and the words in memory. -/
def State.withFetchWord (s : State) (nbits w : Nat) : State := s.placeWord (w % 2 ^ nbits)

end Sys2Proof.Machine
end

