-- ==== Sys2Proof/Safety.lean ====
section
/-! DEFINITION. The terms that statements are made in: the canonical form of memory, a warp at its issue, and what an
instruction that completes leaves (R17, R19, R20, R75, R95, R144). -/

namespace Sys2Proof.Safety

open Sys2Proof.Machine

/-- Package memory keeps its canonical form. -/
def MemoryOk (s : State) : Prop := Memory.wf s.mem = true

/-- Every step of the machine goes on: no state of this machine stops. -/
def GoesOn (s : State) : Prop := ∃ t, step s = .next t

/-! ## A warp at its issue -/

/-- The instruction in hand belongs to a warp that is in no wait of its own and behind no unresolved FENCE, every lane of its ascending
set holds a fibre, and no fault is armed to be injected. -/
structure Issuing (s : State) (iss : Issue) (w : Warp) : Prop where
  issue : s.issue = some iss
  warp : s.warp? iss.key = some w
  ascending : iss.sel.lanes.Pairwise (· < ·)
  fibres : ∀ l ∈ iss.sel.lanes, (w.fibre? l).isSome = true
  free : w.waiting = .none
  settled : w.spec = none
  unarmed : s.inject.arm = false

/-- Does a fibre act: an instruction without a guard acts in every fibre of the set, one with a guard where it holds
(R17, R85, R91). -/
def acts (g : Option Guard) (f : Fibre) : Bool :=
  match g with
  | some g => guardHolds g f
  | none => true

/-- The lanes of the set in which the instruction acts. -/
def acting (iss : Issue) (w : Warp) (g : Option Guard) : List Lane :=
  iss.sel.lanes.filter (fun l => (w.fibre? l).any (acts g))

/-- Every entry that the instruction reads or writes in an acting fibre is full (R19, R20), and no acting fibre has a
deferred cause to take (R315). -/
structure Ready (s : State) (iss : Issue) (w : Warp) (g : Option Guard) (u : Uses) : Prop extends Issuing s iss w where
  full : ∀ l f, l ∈ acting iss w g → w.fibre? l = some f → u.waits w f = false
  calm : ∀ l f, l ∈ acting iss w g → w.fibre? l = some f → f.causes = []

/-- The context in which the instruction of a ready issue acts. -/
def context (iss : Issue) (w : Warp) (g : Option Guard) : Ctx :=
  { key := iss.key, lanes := iss.sel.lanes, active := acting iss w g, iss := iss, w := w }

/-! ## What an issue that completes leaves -/

/-- The fibres of the set after an instruction that every one of them passes: the acting ones are changed by `op`, and each
stands at the next word (R17, R55). -/
def passing (iss : Issue) (g : Option Guard) (op : Lane → Fibre → Fibre) (l : Lane) (f : Fibre) : Fibre :=
  (if acts g f then op l f else f).advance iss.len

/-- The fibres of the set after an instruction that moves the acting ones to places of their own. -/
def moving (iss : Issue) (g : Option Guard) (op : Lane → Fibre → Fibre) (l : Lane) (f : Fibre) : Fibre :=
  if acts g f then op l f else f.advance iss.len

/-- A warp with what every issue moves as it is in `w`: its fibres, R, C, Q and the serial flag, and the model's set, release,
undo records and issue number. -/
def keptIn (w x : Warp) : Warp :=
  { x with slots := w.slots, retired := w.retired, c := w.c, q := w.q, serial := w.serial, sel := w.sel
           released := w.released, undo := w.undo, issues := w.issues }

/-- An issue of warp `w` of state `s` is over and left `t`: `fn` is what became of the fibres of its set, `rest` what became of
the rest of the warp, `out` what became of the state outside its warps, and `count` is what it adds to the retired count (R95:
1 for an instruction that completes). Nothing else changed: no other fibre, no other warp, no byte of memory. -/
structure Completes (s t : State) (iss : Issue) (w : Warp) (fn : Lane → Fibre → Fibre) (rest : Warp → Warp := id)
    (out : State := s) (count : Nat := 1) : Prop where
  outside : { t with warps := s.warps } = out
  memory : ∀ a, memByte t.mem a = memByte s.mem a
  others : ∀ k, k ≠ iss.key → t.warp? k = s.warp? k
  own : ∃ w', t.warp? iss.key = some w' ∧
    (∀ l, w'.fibre? l = (w.fibre? l).map (fun f => if l ∈ iss.sel.lanes then fn l f else f)) ∧
    w'.retired = w.retired + count ∧ w'.q = iss.sel.chosen ∧
    w'.c = (if iss.sel.escort || iss.sel.all then 0 else if iss.sel.chosen = w.q then w.c + 1 else 1) ∧
    w'.serial = (w.serial || decide (9 ≤ w'.keys.length)) ∧ w'.sel = none ∧
    keptIn w w' = rest w

end Sys2Proof.Safety
end

