-- ==== Sys2Proof/Certificates/Slice0/Obligations.lean ====
section
/-! DEFINITION. The statements for the provers. Each `Obligations.<Name>` is one claim; the definitions before it say, from the
spec's tables and rules, what it is a claim about. -/

namespace Sys2Proof.Claims

open Sys2Proof.Machine Sys2Proof.Safety

/-! ## Instructions of one fibre: their guard, their operands, and what they make of a fibre -/

/-- The guard (none where every fibre of the set acts), the operands, and the effect on an acting fibre. -/
structure Meaning where
  guard : Option Guard
  uses : Uses
  effect : Fibre → Fibre

/-- Every instruction of a table completes when its warp is ready for it: every acting fibre of the set takes the effect, all
go on to the next word, and nothing else changes. -/
def CompletesAs (table : Instr → Option Meaning) : Prop :=
  ∀ i m, table i = some m → ∀ s iss w, Ready s iss w m.guard m.uses →
    ∃ t, exec i s = .next t ∧ Completes s t iss w (passing iss m.guard (fun _ f => m.effect f))

/-- `vd := op(va, vb)`. -/
def three (f : FmtA) (op : Word → Word → Word) : Option Meaning :=
  some ⟨some f.g, { src := [vop f.a f.fa, vop f.b f.fb], dst := [vop f.d] }, fun x => x.setV f.d (op (x.val f.a) (x.val f.b))⟩
/-- `vd := op(va)`. -/
def two (f : FmtU) (op : Word → Word) : Option Meaning :=
  some ⟨some f.g, { src := [vop f.a f.fa], dst := [vop f.d] }, fun x => x.setV f.d (op (x.val f.a))⟩
/-- `vd := op(va)` with an immediate. -/
def withImm (f : FmtB) (op : Word → Word) : Option Meaning :=
  some ⟨some f.g, { src := [vop f.a], dst := [vop f.d] }, fun x => x.setV f.d (op (x.val f.a))⟩
/-- `vd := op(vd, va, vb)`, vd read as an accumulator. -/
def acc (f : FmtA) (op : Word → Word → Word → Word) : Option Meaning :=
  some ⟨some f.g, { src := [vop f.a f.fa, vop f.b f.fb, vop f.d], dst := [vop f.d] },
    fun x => x.setV f.d (op (x.val f.d) (x.val f.a) (x.val f.b))⟩

/-- An exact integer clipped to s32 (R32). -/
def clip (x : Int) : Word := BitVec.ofInt 32 (max (-2147483648) (min 2147483647 x))

/-- R77. -/
def wordTable : Instr → Option Meaning
  | .iadd f => three f (fun a b => a + b)
  | .isub f => three f (fun a b => a - b)
  | .imul f => three f (fun a b => BitVec.ofInt 32 (a.toInt * b.toInt))
  | .imulhiS32 f => three f (fun a b => BitVec.ofInt 32 (a.toInt * b.toInt / 2 ^ 32))
  | .imulhiN32 f => three f (fun a b => BitVec.ofNat 32 (a.toNat * b.toNat / 2 ^ 32))
  | .iminS32 f => three f (fun a b => BitVec.ofInt 32 (min a.toInt b.toInt))
  | .iminN32 f => three f (fun a b => BitVec.ofNat 32 (min a.toNat b.toNat))
  | .imaxS32 f => three f (fun a b => BitVec.ofInt 32 (max a.toInt b.toInt))
  | .imaxN32 f => three f (fun a b => BitVec.ofNat 32 (max a.toNat b.toNat))
  | .iaddsatS32 f => three f (fun a b => clip (a.toInt + b.toInt))
  | .isubsatS32 f => three f (fun a b => clip (a.toInt - b.toInt))
  | .and f => three f (fun a b => a &&& b)
  | .or f => three f (fun a b => a ||| b)
  | .xor f => three f (fun a b => a ^^^ b)
  | .andn f => three f (fun a b => a &&& ~~~b)
  | .shl f => three f (fun a b => a <<< (b.toNat % 32))
  | .shr f => three f (fun a b => a >>> (b.toNat % 32))
  | .sar f => three f (fun a b => a.sshiftRight (b.toNat % 32))
  | .rotl f => three f (fun a b => a.rotateLeft (b.toNat % 32))
  | .iabs f => two f (fun a => BitVec.ofNat 32 a.toInt.natAbs)
  | .popc f => two f (fun a => BitVec.ofNat 32 ((List.range 32).filter a.getLsbD).length)
  | .clz f => two f (fun a => BitVec.ofNat 32 ((List.range 32).takeWhile (fun i => !a.getLsbD (31 - i))).length)
  | .brev f => two f (fun a => a.reverse)
  | .mov f => two f (fun a => a)
  | _ => none

/-- The place and effective length of the field that vb describes (R81). -/
def fieldPlace (b : Word) : Nat := b.toNat % 32
def fieldLength (b : Word) : Nat := min (b.toNat / 2 ^ 8 % 64) (32 - fieldPlace b)

/-- R80: the byte dot product. -/
def dotTable : Instr → Option Meaning
  | .idot4S8 f => acc f (fun d a b => BitVec.ofInt 32 (d.toInt +
      (a.extractLsb' 0 8).toInt * (b.extractLsb' 0 8).toInt + (a.extractLsb' 8 8).toInt * (b.extractLsb' 8 8).toInt +
      (a.extractLsb' 16 8).toInt * (b.extractLsb' 16 8).toInt + (a.extractLsb' 24 8).toInt * (b.extractLsb' 24 8).toInt))
  | _ => none

/-- R81: the bit-field instructions. -/
def fieldTable : Instr → Option Meaning
  | .bfxN32 f => three f (fun a b => (a.extractLsb' (fieldPlace b) (fieldLength b)).setWidth 32)
  | .bfxS32 f => three f (fun a b => (a.extractLsb' (fieldPlace b) (fieldLength b)).signExtend 32)
  | .bfi f => acc f (fun d a b =>
      let mask := BitVec.ofNat 32 (2 ^ fieldLength b - 1) <<< fieldPlace b
      (d &&& ~~~mask) ||| (a <<< fieldPlace b &&& mask))
  | _ => none

/-- R78, R90: pairs, and the multiply-add with its variants. -/
def pairTable : Instr → Option Meaning
  | .iadd64 f => pairs f 2 (fun x => x.val64 f.a + x.val64 f.b)
  | .isub64 f => pairs f 2 (fun x => x.val64 f.a - x.val64 f.b)
  | .imulwS32 f => pairs f 1 (fun x => BitVec.ofInt 64 ((x.val f.a).toInt * (x.val f.b).toInt))
  | .imulwN32 f => pairs f 1 (fun x => BitVec.ofNat 64 ((x.val f.a).toNat * (x.val f.b).toNat))
  | .imad f c fc .plain => mad f c fc 1 (fun x => x.setV f.d (x.val f.a * x.val f.b + x.val c))
  | .imad f c fc .wideS => mad f c fc 2 (fun x =>
      x.setV64 f.d (BitVec.ofInt 64 ((x.val f.a).toInt * (x.val f.b).toInt + (x.val64 c).toInt)))
  | .imad f c fc .wideN => mad f c fc 2 (fun x =>
      x.setV64 f.d (BitVec.ofNat 64 ((x.val f.a).toNat * (x.val f.b).toNat + (x.val64 c).toNat)))
  | .imad f c fc .sat => mad f c fc 1 (fun x => x.setV f.d (clip ((x.val f.a).toInt * (x.val f.b).toInt + (x.val c).toInt)))
  | _ => none
where
  /-- A 64-bit result from operands of n entries each. -/
  pairs (f : FmtA) (n : Nat) (r : Fibre → DWord) : Option Meaning :=
    some ⟨some f.g, { src := [vop f.a f.fa n, vop f.b f.fb n], dst := [vop f.d false 2] }, fun x => x.setV64 f.d (r x)⟩
  /-- A multiply-add whose addend and result have n entries. -/
  mad (f : FmtA) (c : Reg) (fc : Bool) (n : Nat) (e : Fibre → Fibre) : Option Meaning :=
    some ⟨some f.g, { src := [vop f.a f.fa, vop f.b f.fb, vop c fc n], dst := [vop f.d false n] }, e⟩

/-- R82, R88: immediates. -/
def immTable : Instr → Option Meaning
  | .iaddi f => withImm f (fun a => a + f.imm.signExtend 32)
  | .andi f => withImm f (fun a => a &&& f.imm.signExtend 32)
  | .ori f => withImm f (fun a => a ||| f.imm.signExtend 32)
  | .xori f => withImm f (fun a => a ^^^ f.imm.signExtend 32)
  | .shli f => withImm f (fun a => a <<< (f.imm.toNat % 32))
  | .shri f => withImm f (fun a => a >>> (f.imm.toNat % 32))
  | .sari f => withImm f (fun a => a.sshiftRight (f.imm.toNat % 32))
  | .movi g d imm => some ⟨some g, { dst := [vop d] }, fun x => x.setV d imm⟩
  | _ => none

/-- The relations of R62 on integers (R83). -/
def relation (cc : IntCmp) (a b : Word) : Bool :=
  match cc with
  | .eq => a == b
  | .ne => a != b
  | .lt => decide (a.toInt < b.toInt)
  | .le => decide (a.toInt ≤ b.toInt)
  | .gt => decide (a.toInt > b.toInt)
  | .ge => decide (a.toInt ≥ b.toInt)
  | .lo => decide (a.toNat < b.toNat)
  | .hs => decide (a.toNat ≥ b.toNat)

/-- R83 to R86: compares, PCOMB, PICK, PREAD and PWRITE. PICK acts in every fibre of the set. -/
def predTable : Instr → Option Meaning
  | .icmp f => some ⟨some f.g, { src := [vop f.a f.fa, vop f.b f.fb] },
      fun x => x.setPred f.pd (relation f.cc (x.val f.a) (x.val f.b))⟩
  | .pcomb g pd pa pb table => some ⟨some g, {}, fun x =>
      x.setPred pd (table.getLsbD (4 * (x.pred pd).toNat + 2 * (x.pred pa).toNat + (x.pred pb).toNat))⟩
  | .pick f => some ⟨none, { src := [vop f.a f.fa, vop f.b f.fb], dst := [vop f.d] },
      fun x => x.setV f.d (if x.pred f.g.pred != f.g.sense then x.val f.a else x.val f.b)⟩
  | .pread g d => some ⟨some g, { dst := [vop d] }, fun x => x.setV d (x.preds.setWidth 32)⟩
  | .pwrite g a b fa fb => some ⟨some g, { src := [vop a fa, vop b fb] }, fun x =>
      { x with preds := ((x.val a).setWidth 7 &&& (x.val b).setWidth 7) ||| (x.preds &&& ~~~((x.val b).setWidth 7)) }⟩
  | _ => none

/-! ## Floating point (R98 to R111) -/

/-- Generator steps where the mode is RSR (R27, R42). -/
def stepIf (mode : RMode) (n : Nat) (x : Fibre) : Fibre :=
  if mode = .rsr then { x with gen := genSteps n x.gen } else x
/-- The value of the low half and of the high half of a word in a 16-bit format. -/
def loVal (fm : Fmt) (x : Word) : FVal := fdec fm (x.toNat % 2 ^ 16)
def hiVal (fm : Fmt) (x : Word) : FVal := fdec fm (x.toNat / 2 ^ 16)
/-- F(x) of R98. -/
def fVal (x : Word) : FVal := fdec f32 x.toNat
/-- Enc(RoundRNE(E, f32), f32). -/
def rounded (e : FVal) : Word := BitVec.ofNat 32 (froundRNE f32 e)
/-- The two halves of a result, each rounded to its format. -/
def roundedPair (fm : Fmt) (lo hi : FVal) : Word := BitVec.ofNat 32 (froundRNE fm hi * 2 ^ 16 + froundRNE fm lo)
/-- The exact sum of R101. -/
def plus (a b : FVal) : FVal := fsum false [a, b]

/-- FMIN and FMAX (R103) on the encodings of a format. -/
def minmax (fm : Fmt) (most : Bool) (a b : Nat) : Nat :=
  if fdec fm a = .nan then (if fdec fm b = .nan then fm.nan else b)
  else if fdec fm b = .nan then a
  else if (fdec fm a).lt (fdec fm b) then (if most then b else a)
  else if (fdec fm b).lt (fdec fm a) then (if most then a else b)
  else if (fdec fm a).isNeg = most then b else a

/-- R102 to R104, R106: FP32 arithmetic. -/
def floatTable : Instr → Option Meaning
  | .fadd f => three f (fun a b => rounded (plus (fVal a) (fVal b)))
  | .fsub f => three f (fun a b => rounded (plus (fVal a) (fVal b).neg))
  | .fmul f => three f (fun a b => rounded ((fVal a).mul (fVal b)))
  | .ffma f => acc f (fun d a b => rounded (plus ((fVal a).mul (fVal b)) (fVal d)))
  | .ffms f => acc f (fun d a b => rounded (plus ((fVal a).mul (fVal b)) (fVal d).neg))
  | .ffnma f => acc f (fun d a b => rounded (plus ((fVal a).mul (fVal b)).neg (fVal d)))
  | .fmin f => three f (fun a b => BitVec.ofNat 32 (minmax f32 false a.toNat b.toNat))
  | .fmax f => three f (fun a b => BitVec.ofNat 32 (minmax f32 true a.toNat b.toNat))
  | .fscale f => three f (fun a b => match fVal a with
      | .nan => 0x7FC00000
      | .inf _ => a
      | .fin neg m e => rounded (.fin neg m (e + b.toInt)))
  | .fabs f => two f (fun a => if fVal a = .nan then 0x7FC00000 else a &&& 0x7FFFFFFF)
  | .fneg f => two f (fun a => if fVal a = .nan then 0x7FC00000 else a ^^^ 0x80000000)
  | .fclass f => two f (fun a => BitVec.ofNat 32 (2 ^ (match fVal a with
      | .nan => 8
      | .inf neg => if neg then 0 else 7
      | .fin neg m _ =>
        if m = 0 then (if neg then 3 else 4)
        else if a.toNat / 2 ^ 23 % 2 ^ 8 = 0 then (if neg then 2 else 5)
        else (if neg then 1 else 6))))
  | .fround g d a fa mode => some ⟨some g, { src := [vop a fa], dst := [vop d] }, fun x =>
      stepIf mode 1 (x.setV d (match fVal (x.val a) with
        | .nan => 0x7FC00000
        | .inf _ => x.val a
        | .fin neg m e => if m = 0 then x.val a else rounded (.fin neg (roundInt mode neg x.gen m e) 0)))⟩
  | .fdot2B2 f => acc f (fun d a b => rounded (fsum false
      [fVal d, (loVal bf16 a).mul (loVal bf16 b), (hiVal bf16 a).mul (hiVal bf16 b)]))
  | _ => none

/-- R105, R109: the value that a floating compare gives. -/
def fRelation (cc : FltCmp) (x y : FVal) : Bool :=
  if x = .nan ∨ y = .nan then cc == .ne || cc == .un
  else match cc with
    | .eq => !x.lt y && !y.lt x
    | .ne => x.lt y || y.lt x
    | .lt => x.lt y
    | .le => !y.lt x
    | .gt => y.lt x
    | .ge => !x.lt y
    | .un => false
    | .num => true

/-- What the elements of an instruction in a 16-bit paired format become (R108, R109). -/
def pairedTable (fm : Fmt) : Instr → Option Meaning
  | .faddH2 f | .faddB2 f => three f (fun a b => roundedPair fm (plus (loVal fm a) (loVal fm b)) (plus (hiVal fm a) (hiVal fm b)))
  | .fmulH2 f | .fmulB2 f => three f (fun a b => roundedPair fm ((loVal fm a).mul (loVal fm b)) ((hiVal fm a).mul (hiVal fm b)))
  | .ffmaH2 f | .ffmaB2 f => acc f (fun d a b =>
      roundedPair fm (plus ((loVal fm a).mul (loVal fm b)) (loVal fm d)) (plus ((hiVal fm a).mul (hiVal fm b)) (hiVal fm d)))
  | .fminH2 f | .fminB2 f => three f (fun a b => halves (minmax fm false) a b)
  | .fmaxH2 f | .fmaxB2 f => three f (fun a b => halves (minmax fm true) a b)
  | .fcmpH2 f | .fcmpB2 f => some ⟨some f.g, { src := [vop f.a f.fa, vop f.b f.fb] }, fun x =>
      if f.pd.val = 7 then x
      else (x.setPred f.pd (fRelation f.cc (loVal fm (x.val f.a)) (loVal fm (x.val f.b)))).setPred (f.pd + 1)
        (fRelation f.cc (hiVal fm (x.val f.a)) (hiVal fm (x.val f.b)))⟩
  | _ => none
where
  /-- An operation on each pair of halves. -/
  halves (op : Nat → Nat → Nat) (a b : Word) : Word :=
    BitVec.ofNat 32 (op (a.toNat / 2 ^ 16) (b.toNat / 2 ^ 16) * 2 ^ 16 + op (a.toNat % 2 ^ 16) (b.toNat % 2 ^ 16))

/-- The paired BF16 forms, and FCMP, which run at every service level. -/
def bf16Table : Instr → Option Meaning
  | .faddB2 f => pairedTable bf16 (.faddB2 f)
  | .fmulB2 f => pairedTable bf16 (.fmulB2 f)
  | .ffmaB2 f => pairedTable bf16 (.ffmaB2 f)
  | .fminB2 f => pairedTable bf16 (.fminB2 f)
  | .fmaxB2 f => pairedTable bf16 (.fmaxB2 f)
  | .fcmpB2 f => pairedTable bf16 (.fcmpB2 f)
  | .fcmp f => some ⟨some f.g, { src := [vop f.a f.fa, vop f.b f.fb] },
      fun x => x.setPred f.pd (fRelation f.cc (fVal (x.val f.a)) (fVal (x.val f.b)))⟩
  | _ => none

/-- The paired FP16 forms (R108, R109). -/
def fp16Table : Instr → Option Meaning
  | .faddH2 f => pairedTable f16 (.faddH2 f)
  | .fmulH2 f => pairedTable f16 (.fmulH2 f)
  | .ffmaH2 f => pairedTable f16 (.ffmaH2 f)
  | .fminH2 f => pairedTable f16 (.fminH2 f)
  | .fmaxH2 f => pairedTable f16 (.fmaxH2 f)
  | .fcmpH2 f => pairedTable f16 (.fcmpH2 f)
  | _ => none

/-! ## Conversions and FFMA4 (R111, R114 to R116) -/

/-- Does a type need service level S2 (R100)? -/
def needsLevel2 (t : CvtType) : Bool := t == .f16 || t == .e4 || t == .e5

/-- A register or an even pair, as a type's width asks (R31). -/
def entriesOf (t : CvtType) : Nat := if t = .s64 ∨ t = .n64 then 2 else 1
/-- The bits of a source. -/
def sourceOf (t : CvtType) (a : Reg) (x : Fibre) : Nat := if entriesOf t = 2 then (x.val64 a).toNat else (x.val a).toNat
/-- Write the bits of a result. -/
def writeAs (t : CvtType) (d : Reg) (r : Nat) (x : Fibre) : Fibre :=
  if entriesOf t = 2 then x.setV64 d (BitVec.ofNat 64 r) else x.setV d (BitVec.ofNat 32 r)
/-- One element of FFMA4 in a format (R111): its generator state is `g`. -/
def fused (fm : Fmt) (mode : RMode) (np nc : Bool) (g : Word) (a b c : FVal) : Nat :=
  fround fm mode false g (fsum (mode == .rdn)
    [if np then (a.mul b).neg else a.mul b, if nc then c.neg else c])

/-- FFMA4's result (R111): the `.hi` element of a pair uses the generator state after one step. -/
def ffma4Result (ty : Ffma4Type) (mode : RMode) (np nc : Bool) (g : Word) (a b c : Word) : Word :=
  let pair (fm : Fmt) : Word := BitVec.ofNat 32
    (fused fm mode np nc (if mode = .rsr then genStep g else g) (hiVal fm a) (hiVal fm b) (hiVal fm c) * 2 ^ 16 +
      fused fm mode np nc g (loVal fm a) (loVal fm b) (loVal fm c))
  match ty with
  | .f32 => BitVec.ofNat 32 (fused f32 mode np nc g (fVal a) (fVal b) (fVal c))
  | .h2 => pair f16
  | .b2 => pair bf16

/-- The conversions and FFMA4, with the types that decide whether they run below S2. -/
def convTable : Instr → Option (Meaning × Bool)
  | .cvt g d a fa dst src => some (⟨some g, { src := [vop a fa], dst := [vop d] },
      fun x => writeAs dst d (convert dst src .rne false 0 (sourceOf src a x)) x⟩, needsLevel2 dst || needsLevel2 src)
  | .cvtpk g d a fa sel =>
    let lo (fm : Fmt) (x : Fibre) := froundRNE fm (fVal (x.valAt a 0))
    let hi (fm : Fmt) (x : Fibre) := froundRNE fm (fVal (x.valAt a 1))
    some (⟨some g, { src := [vop a fa 2], dst := [vop d] }, fun x => x.setV d (BitVec.ofNat 32 (match sel with
      | .f16 => lo f16 x + 2 ^ 16 * hi f16 x
      | .bf16 => lo bf16 x + 2 ^ 16 * hi bf16 x
      | .e4 => lo e4m3 x + 2 ^ 8 * hi e4m3 x
      | .e5 => lo e5m2 x + 2 ^ 8 * hi e5m2 x))⟩, sel != .bf16)
  | .cvtx g d a fa dst src mode sat false _ => some (⟨some g,
      { src := [vop a fa (entriesOf src)], dst := [vop d false (entriesOf dst)] },
      fun x => stepIf mode 1 (writeAs dst d (convert dst src mode sat x.gen (sourceOf src a x)) x)⟩,
      needsLevel2 dst || needsLevel2 src)
  | .ffma4 f c fc mode ty np nc => some (⟨some f.g, { src := [vop f.a f.fa, vop f.b f.fb, vop c fc], dst := [vop f.d] },
      fun x => stepIf mode (if ty = .f32 then 1 else 2)
        (x.setV f.d (ffma4Result ty mode np nc x.gen (x.val f.a) (x.val f.b) (x.val c)))⟩, ty == .h2)
  | _ => none



/-! ## Instructions of a warp: what they make of its fibres, of the rest of the warp, and of the state outside its warps -/

/-- The guard and operands; the condition on the state and the operands under which all the rest holds; the state that the
instruction first makes where it changes more than its own fibres, memory by a flush or the other fibres of its warp; what an
acting fibre becomes, and whether the instruction itself says where the fibre goes on; what the rest of the warp and the state
outside the warps become; and what the issue adds to the retired count. -/
structure Wide (s : State) where
  guard : Option Guard
  uses : Uses := {}
  need : Prop := True
  before : State := s
  effect : Lane → Fibre → Fibre := fun _ f => f
  moves : Bool := false
  rest : Warp → Warp := id
  out : State := before
  count : Nat := 1

/-- Every well-formed instruction of a table completes as its entry says. -/
def Runs (table : (s : State) → Issue → Warp → Instr → Option (Wide s)) : Prop :=
  ∀ s iss w i m, table s iss w i = some m → WellFormed i → Ready s iss w m.guard m.uses → m.need →
    ∃ t w', exec i s = .next t ∧ m.before.warp? iss.key = some w' ∧
      Completes m.before t iss w' ((if m.moves then moving else passing) iss m.guard m.effect) m.rest m.out m.count

/-- The acting fibres, in the order of the set. -/
def actors (iss : Issue) (w : Warp) (g : Option Guard) : List (Lane × Fibre) :=
  (acting iss w g).filterMap (fun l => (w.fibre? l).map (fun f => (l, f)))

/-- A long-latency producer (R18): the destination entries of each acting fibre become empty, and its results are on their way
to them. -/
def producer (s : State) (iss : Issue) (w : Warp) (g : Guard) (u : Uses) (dst : Fibre → List Nat)
    (result : Lane → Fibre → List Word) (need : Prop := True) (out : State := s) : Wide s :=
  { guard := some g, uses := u, need := need, effect := fun _ f => f.emptyEntries (dst f)
    rest := fun x => { x with pend := x.pend ++ (actors iss w (some g)).map (fun e =>
      { num := w.issues, lane := e.1, kind := .regs ((dst e.2).zip (result e.1 e.2)), pc := iss.pc, hdr := iss.hdr }) }
    out := out }

/-- An instruction whose effect the store gate holds (R329): some fibre acts, registers change as `effect` and the warp as `first`
say, and the effect stands behind what the gate holds already. -/
def holding (s : State) (iss : Issue) (w : Warp) (g : Guard) (u : Uses) (e : Held) (need : Prop := True)
    (effect : Lane → Fibre → Fibre := fun _ f => f) (first : Warp → Warp := id) : Wide s :=
  { guard := some g, uses := u, need := acting iss w (some g) ≠ [] ∧ need, effect := effect
    rest := fun x => { first x with pend := (first x).pend ++
      [{ num := w.issues, lane := 64, kind := .held e, pc := iss.pc, hdr := iss.hdr, seq := s.tick }] } }

/-! ### The uniform ALU and special registers (R87 to R97) -/

/-- The result of a 32-bit sub-operation of R92. -/
def uniform (op : SaluOp) (a b : Word) : Word :=
  let c := b.toNat % 32
  match op with
  | .add => a + b
  | .sub => a - b
  | .mul => BitVec.ofInt 32 (a.toInt * b.toInt)
  | .and => a &&& b
  | .or => a ||| b
  | .xor => a ^^^ b
  | .andn => a &&& ~~~b
  | .shl => a <<< c
  | .shr => a >>> c
  | .sar => a.sshiftRight c
  | .minS => BitVec.ofInt 32 (min a.toInt b.toInt)
  | .minN => BitVec.ofNat 32 (min a.toNat b.toNat)
  | .maxS => BitVec.ofInt 32 (max a.toInt b.toInt)
  | .maxN => BitVec.ofNat 32 (max a.toNat b.toNat)
  | .mov => b
  | .seq => if a = b then 1 else 0
  | .sne => if a ≠ b then 1 else 0
  | .sltS => if a.toInt < b.toInt then 1 else 0
  | .sltN => if a.toNat < b.toNat then 1 else 0
  | .sleS => if a.toInt ≤ b.toInt then 1 else 0
  | .sleN => if a.toNat ≤ b.toNat then 1 else 0
  | .popc => BitVec.ofNat 32 ((List.range 32).filter a.getLsbD).length
  | .clz => BitVec.ofNat 32 ((List.range 32).takeWhile (fun i => !a.getLsbD (31 - i))).length
  | .add64 | .addp64 | .subp64 => 0

/-- The write of a sub-operation to the warp's s registers (R92). -/
def uniformWrite (op : SaluOp) (d a : Reg) (b : Word) (b64 : DWord) (w : Warp) : Warp :=
  match op with
  | .add64 => w.setS64 d.val (w.sval64 a + BitVec.ofInt 64 b.toInt)
  | .addp64 => w.setS64 d.val (w.sval64 a + b64)
  | .subp64 => w.setS64 d.val (w.sval64 a - b64)
  | _ => w.setS d.val (uniform op (w.sval a) b)

/-- How many s registers the destination and the operands name. -/
def uniformUses (op : SaluOp) : Nat × Nat × Nat :=
  match op with
  | .add64 => (2, 2, 1)
  | .addp64 | .subp64 => (2, 2, 2)
  | .mov => (1, 0, 1)
  | .popc | .clz => (1, 1, 0)
  | _ => (1, 1, 1)

/-- The 64-bit count that CLKLO and CLKHI show (R95): under deterministic mode the retired count, else the periods since the core
left reset, each step taking a free number of them (the model's choice, log entry 16). -/
def clock (s : State) (w : Warp) (la : Launch) (core : Nat) : Nat :=
  if la.det then w.retired else clockCount core s.resetTick (s.tick - s.resetTick)

/-- SR(n) (R94, R95, R97). SVCLEVEL shows the model's encoding of the service level (log entry 53). -/
def special (s : State) (k : WarpKey) (w : Warp) (l : Lane) (f : Fibre) (la : Launch) (core : Nat) (n : SpecReg) : Word :=
  let g := groupIndex la k.w
  match n with
  | .laneid => BitVec.ofNat 32 l
  | .warpid => BitVec.ofNat 32 w.warpid
  | .groupx => BitVec.ofNat 32 (g % la.record.gridx)
  | .groupy => BitVec.ofNat 32 (g / la.record.gridx % la.record.gridy)
  | .groupz => BitVec.ofNat 32 (g / (la.record.gridx * la.record.gridy))
  | .gangrank => BitVec.ofNat 32 (g % la.record.gang)
  | .launchid => la.record.lid
  | .nwarps => BitVec.ofNat 32 la.record.warps
  | .depth => BitVec.ofNat 32 f.depth
  | .wbase => BitVec.ofNat 32 f.wb
  | .alloc => BitVec.ofNat 32 w.alloc
  | .srgen => f.gen
  | .clklo => BitVec.ofNat 32 (clock s w la core)
  | .clkhi => BitVec.ofNat 32 (clock s w la core / 2 ^ 32)
  | .retlo => BitVec.ofNat 32 w.retired
  | .rethi => BitVec.ofNat 32 (w.retired / 2 ^ 32)
  | .svclevel => BitVec.ofNat 32 s.level
  | .corenum => if la.det then 0 else BitVec.ofNat 32 (core / 384 * 2 ^ 30 + core / 32 % 12 * 2 ^ 24 + core % 32)
  | .trcause => if f.handler then f.tr.cause else 0
  | .trinfo0 => if f.handler then f.tr.info0 else 0
  | .trinfo1 => if f.handler then f.tr.info1 else 0
  | .trpc => if f.handler then f.tr.pc else 0
  | .trhdr => if f.handler then f.tr.hdr else 0
  | .trsave0 => if f.handler then f.tr.save0 else 0
  | .trsave1 => if f.handler then f.tr.save1 else 0

/-- What SRSET leaves of a fibre (R93, R96). -/
def specialSet (f : Fibre) (n : SpecReg) (x : Word) : Fibre :=
  match n with
  | .srgen => { f with gen := if x = 0 then 0x6A09E667 else x }
  | .trcause => { f with tr := { f.tr with cause := x } }
  | .trinfo0 => { f with tr := { f.tr with info0 := x } }
  | .trinfo1 => { f with tr := { f.tr with info1 := x } }
  | .trpc => { f with tr := { f.tr with pc := x } }
  | .trhdr => { f with tr := { f.tr with hdr := x } }
  | .trsave0 => { f with tr := { f.tr with save0 := x } }
  | .trsave1 => { f with tr := { f.tr with save1 := x } }
  | _ => f

/-- R87 to R97: MOVS, SMOVI, SALU, SALUI, SRGET and SRSET. A trap register is written inside a handler only. -/
def uniformTable (s : State) (iss : Issue) (w : Warp) : Instr → Option (Wide s)
  | .movs g d sb fb => some { guard := some g, uses := { src := [sop sb fb], dst := [vop d] }, effect := fun _ f => f.setV d (w.sval sb) }
  | .smovi g d imm => some { guard := some g, uses := { dst := [sop d] }
                             rest := fun x => if acting iss w (some g) = [] then x else x.setS d.val imm }
  | .salu op d a b => some { guard := none
                             uses := { src := [sop a false (uniformUses op).2.1, sop b false (uniformUses op).2.2]
                                       dst := [sop d false (uniformUses op).1] }
                             rest := fun x => uniformWrite op d a (w.sval b) (w.sval64 b) x }
  | .salui op d a imm => some { guard := none
                                uses := { src := [sop a false (uniformUses op).2.1], dst := [sop d false (uniformUses op).1] }
                                rest := fun x => uniformWrite op d a (imm.signExtend 32) 0 x }
  | .srget g d n => some { guard := some g, uses := { dst := [vop d] }
                           need := ∃ la, s.launch? iss.key.lid = some la
                           effect := fun l f => match s.launch? iss.key.lid with
                             | some la => f.setV d (special s iss.key w l f la (s.coreNo iss.key) n)
                             | none => f }
  | .srset g a n => some { guard := some g, uses := { src := [vop a] }
                           need := n = .srgen ∨ ∀ l ∈ iss.sel.lanes, ∀ f, w.fibre? l = some f → f.handler = true
                           effect := fun _ f => specialSet f n (f.val a) }
  | _ => none

/-! ### Long-latency producers (R76, R79, R112, R154 to R163) -/

/-- Quotient and remainder (R79). -/
def divSigned (a b : Word) : Word × Word :=
  if b = 0 then (-1, a) else (a.sdiv b, a.srem b)
def divUnsigned (a b : Word) : Word × Word :=
  if b = 0 then (-1, a) else (a / b, a % b)

/-- Combine(Y) of R162 for the pairings of R161. -/
def combined (op : RedOp) (ty : RedType) (mode : RMode) (y : List Word) : Word :=
  let first (most : Bool) : Word := match y with
    | [] => if most then 0xFF800000 else 0x7F800000
    | a :: l => (a :: l).foldl (fun u v => BitVec.ofNat 32 (minmax f32 most u.toNat v.toNat)) a
  match op, ty with
  | .add, .f32 => if y = [] then 0 else
      BitVec.ofNat 32 (fround f32 mode false 0 (fsum (mode == .rdn) (y.map fVal)))
  | .add, _ => BitVec.ofNat 32 (y.map BitVec.toNat).sum
  | .min, .s32 => BitVec.ofInt 32 ((y.map BitVec.toInt).foldl min (2 ^ 31 - 1))
  | .max, .s32 => BitVec.ofInt 32 ((y.map BitVec.toInt).foldl max (-(2 ^ 31)))
  | .min, .f32 => first false
  | .max, .f32 => first true
  | .min, _ => BitVec.ofNat 32 ((y.map BitVec.toNat).foldl min (2 ^ 32 - 1))
  | .max, _ => BitVec.ofNat 32 ((y.map BitVec.toNat).foldl max 0)
  | .and, _ => y.foldl (· &&& ·) (-1)
  | .or, _ => y.foldl (· ||| ·) 0
  | .xor, _ => y.foldl (· ^^^ ·) 0

/-- The mask of the acting lanes whose fibre has a property, as two words. -/
def maskOfLanes (l : List (Lane × Fibre)) (p : Fibre → Bool) : DWord :=
  BitVec.ofNat 64 (((l.filter (fun e => p e.2)).map (fun e => 2 ^ e.1)).sum)

/-- The four divides: sources and results of one entry. -/
def divideTable (s : State) (iss : Issue) (w : Warp) : Instr → Option (Wide s)
  | .idivS32 f => three f (fun a b => (divSigned a b).1)
  | .iremS32 f => three f (fun a b => (divSigned a b).2)
  | .idivN32 f => three f (fun a b => (divUnsigned a b).1)
  | .iremN32 f => three f (fun a b => (divUnsigned a b).2)
  | _ => none
where
  /-- A producer of three registers. -/
  three (f : FmtA) (op : Word → Word → Word) : Option (Wide s) :=
    some (producer s iss w f.g { src := [vop f.a f.fa, vop f.b f.fb], dst := [vop f.d] } (fun x => x.entriesFrom f.d 1)
      (fun _ x => [op (x.val f.a) (x.val f.b)]))

/-- The eight special functions, whose value on other inputs than the special ones is a faithful result (R113). -/
def functionTable (s : State) (iss : Issue) (w : Warp) : Instr → Option (Wide s)
  | .frcp f => one f frcp
  | .frsq f => one f frsq
  | .fsqrt f => one f fsqrt
  | .fex2 f => one f fex2
  | .flg2 f => one f flg2
  | .fsin f => one f fsin
  | .fcos f => one f fcos
  | .ftanh f => one f ftanh
  | _ => none
where
  /-- A producer of two registers. -/
  one (f : FmtU) (op : Word → Nat) : Option (Wide s) :=
    some (producer s iss w f.g { src := [vop f.a f.fa], dst := [vop f.d] } (fun x => x.entriesFrom f.d 1)
      (fun _ x => [BitVec.ofNat 32 (op (x.val f.a))]))

/-- The cross-lane instructions (R154 to R163). -/
def crossTable (s : State) (iss : Issue) (w : Warp) : Instr → Option (Wide s)
  | .shflIdx f => shuffle f (fun width _ d => some (d % width))
  | .shflUp f => shuffle f (fun _ l d => if d ≤ l then some (l - d) else none)
  | .shflDown f => shuffle f (fun width l d => if l + d < width then some (l + d) else none)
  | .shflXor f => shuffle f (fun width l d => some (l ^^^ (d % width)))
  | .vote g pd mode ps => some { guard := some g, effect := fun _ f => f.setPred pd (
      let vs := (actors iss w (some g)).map (fun e => e.2.pred ps)
      match mode with
      | .all => vs.all id
      | .any => vs.any id
      | .same => vs.all id || !vs.any id
      | .odd => (vs.filter id).length % 2 == 1) }
  | .ballot g d ps => some { guard := some g, uses := { dst := [vop d false 2] }
                             effect := fun _ f => f.setV64 d (maskOfLanes (actors iss w (some g)) (fun x => x.pred ps)) }
  | .elect g pd d => some { guard := some g, uses := { dst := [vop d] }
                            effect := fun l f => (f.setPred pd ((acting iss w (some g)).all (fun m => decide (l ≤ m)))).setV d
                              (BitVec.ofNat 32 (((acting iss w (some g)).min?).getD 0)) }
  | .matchLanes f => some (producer s iss w f.g { src := [vop f.a f.fa], dst := [vop f.d false 2] } (fun x => x.entriesFrom f.d 2)
      (fun _ x => let m := maskOfLanes (actors iss w (some f.g)) (fun y => y.val f.a == x.val f.a)
        [m.setWidth 32, (m >>> 32).setWidth 32]))
  | .redux f op ty mode => some (producer s iss w f.g { src := [vop f.a f.fa], dst := [vop f.d] } (fun x => x.entriesFrom f.d 1)
      (fun _ _ => [combined op ty mode ((actors iss w (some f.g)).map (fun e => e.2.val f.a))]))
  | .scan f op ty mode ex => some (producer s iss w f.g { src := [vop f.a f.fa], dst := [vop f.d] } (fun x => x.entriesFrom f.d 1)
      (fun l _ => [combined op ty mode (((actors iss w (some f.g)).filter
        (fun e => decide (e.1 < l) || (e.1 == l && !ex))).map (fun e => e.2.val f.a))]))
  | .readlane g d a sb fa fb =>
    let lane := (w.sval sb).toNat % s.widthOf iss.key
    let source : Operand := { reg := a.val, bit := fa, lane := some lane }
    some (producer s iss w g { src := [source, sop sb fb], dst := [vop d] } (fun x => x.entriesFrom d 1)
      (fun _ _ => [match w.fibre? lane with
        | some y => y.val a
        | none => 0]))
  | _ => none
where
  /-- A shuffle: the value of the source lane when it acts, else the fibre's own. -/
  shuffle (f : FmtA) (source : (width lane d : Nat) → Option Nat) : Option (Wide s) :=
    some (producer s iss w f.g { src := [vop f.a f.fa, vop f.b f.fb], dst := [vop f.d] } (fun x => x.entriesFrom f.d 1)
      (fun l x => [match source (s.widthOf iss.key) l (x.val f.b).toNat with
        | some m => if m ∈ acting iss w (some f.g) then ((w.fibre? m).map (fun y => y.val f.a)).getD 0 else x.val f.a
        | none => x.val f.a]))

/-! ### Control flow (R23, R24, R65, R117 to R126) -/

/-- The entries from a to b of a fibre are full. -/
def fullFrom (f : Fibre) (a b : Nat) : Prop := ∀ j, a ≤ j → j ≤ b → (f.entry j).full = true

/-- A call (R23): `frame` entries further, back to the word after the clause. -/
def called (f : Fibre) (frame : Nat) (target : Word) : Fibre :=
  let x := (f.setEntry (f.wb + frame + 62) ⟨f.lr, true⟩).setEntry (f.wb + frame + 63)
    ⟨BitVec.ofNat 32 (f.depth * 2 ^ 24 + f.wb), true⟩
  { x with lr := f.hdr + BitVec.ofNat 32 f.body.length + 1, wb := f.wb + frame, depth := f.depth + 1
           pc := target, hdr := target, inside := false, body := [], refetch := false }

/-- The saved-state word of R22. -/
def savedWord (f : Fibre) : Word := (f.entry (f.wb + 63)).val

/-- A return (R24). -/
def returned (f : Fibre) : Fibre :=
  { f with lr := (f.entry (f.wb + 62)).val, wb := (savedWord f).toNat % 2 ^ 16, depth := (savedWord f).toNat / 2 ^ 24
           pc := f.lr, hdr := f.lr, inside := false, body := [], refetch := false }

/-- The fibre stands at a header. -/
def at_ (f : Fibre) (pc : Word) : Fibre := { f with pc := pc, hdr := pc, inside := false, body := [], refetch := false }

/-- What a call needs (R23). -/
def callNeed (iss : Issue) (w : Warp) (g : Guard) (fc : Fin 8) : Prop :=
  ∀ l f, l ∈ acting iss w (some g) → w.fibre? l = some f →
    f.depth < 255 ∧ f.wb + 8 * fc.val + 63 < w.alloc ∧ fullFrom f (f.wb + 8 * fc.val + 62) (f.wb + 8 * fc.val + 63)

/-- The launch has a handler, and no fibre of a list of lanes runs it (R312). -/
def Handled (s : State) (iss : Issue) (w : Warp) (g : Option Guard) : Prop :=
  (∃ la, s.launch? iss.key.lid = some la ∧ la.hdlr = true) ∧
  ∀ l f, l ∈ acting iss w g → w.fibre? l = some f → f.handler = false

/-- A fibre that has entered its handler (R97, R312, R313): the cause word and the information, where it was, the handler
words zero, and nothing else changed. -/
def entered (s : State) (iss : Issue) (f : Fibre) (cause : Nat) (info0 info1 pc hdr : Word) : Fibre :=
  { at_ f (((s.launch? iss.key.lid).map (·.record.handler)).getD 0) with
    handler := true
    tr := { cause := BitVec.ofNat 32 cause, info0 := info0, info1 := info1, pc := pc, hdr := hdr, save0 := 0, save1 := 0 } }

/-- A trap that every acting fibre takes: the issue does not count, unless no fibre acts (R95). -/
def trapping (s : State) (iss : Issue) (w : Warp) (g : Option Guard) (u : Uses) (cause : Nat) (info0 info1 : Word)
    (need : Prop := True) : Wide s :=
  { guard := g, uses := u, need := need ∧ Handled s iss w g, moves := true
    effect := fun _ f => entered s iss f cause info0 info1 f.pc f.hdr
    count := if acting iss w g = [] then 1 else 0 }

/-- TRAP and BKPT (R125): the PC that the handler sees is the word after. -/
def softTrapping (s : State) (iss : Issue) (w : Warp) (g : Guard) (cause : Nat) (code : BitVec 8) : Wide s :=
  { guard := some g, need := Handled s iss w (some g), moves := true
    effect := fun _ f =>
      let last := f.hdr + BitVec.ofNat 32 f.body.length
      entered s iss f cause (code.setWidth 32) 0 (f.pc + 1)
        (if (f.pc + 1 - f.hdr).toNat ≤ f.body.length then f.hdr else last + 1)
    count := if acting iss w (some g) = [] then 1 else 0 }

/-- Branches, calls, returns, traps, TRET to a header, and an unassigned opcode. -/
def controlTable (s : State) (iss : Issue) (w : Warp) : Instr → Option (Wide s)
  | .nop g => some { guard := some g }
  | .yieldTurn g => some { guard := some g, out := if acting iss w (some g) = [] then s else s.passTurn iss.key }
  | .bra g disp => some { guard := some g, moves := true, effect := fun _ f => at_ f (f.hdr + disp.signExtend 32) }
  | .brx g a fa => some { guard := some g, uses := { src := [vop a fa] }, moves := true, effect := fun _ f => at_ f (f.val a) }
  | .bru g sa nz fs disp =>
    if (w.sval sa = 0) = (nz = true) then some { guard := some g, uses := { src := [sop sa fs] } }
    else some { guard := some g, uses := { src := [sop sa fs] }, moves := true, effect := fun _ f => at_ f (f.hdr + disp) }
  | .call g fc disp => some { guard := some g, need := callNeed iss w g fc, moves := true
                              effect := fun _ f => called f (8 * fc.val) (f.hdr + disp.signExtend 32) }
  | .callx g fc a fa => some { guard := some g, uses := { src := [vop a fa] }, need := callNeed iss w g fc, moves := true
                               effect := fun _ f => called f (8 * fc.val) (f.val a) }
  | .ret g => some { guard := some g, uses := { src := [vop 62, vop 63] }, moves := true, effect := fun _ f => returned f
                     need := ∀ l f, l ∈ acting iss w (some g) → w.fibre? l = some f →
                       let v := (savedWord f).toNat
                       0 < f.depth ∧ v / 2 ^ 24 = f.depth - 1 ∧ v / 2 ^ 16 % 2 ^ 8 = 0 ∧ v % 8 = 0 ∧
                       v % 2 ^ 16 < f.wb ∧ v % 2 ^ 16 + 63 < w.alloc ∧ fullFrom f (v % 2 ^ 16 + 64) (f.wb + 63) }
  | .trap g code => some (softTrapping s iss w g 0x40 code)
  | .bkpt g code => some (softTrapping s iss w g 0x41 code)
  | .tret g => some { guard := some g, moves := true
                      need := (∀ l ∈ iss.sel.lanes, ∀ f, w.fibre? l = some f → f.handler = true) ∧
                        ∀ l f, l ∈ acting iss w (some g) → w.fibre? l = some f →
                          f.tr.pc = f.tr.hdr ∨ 15 < (f.tr.pc - f.tr.hdr).toNat
                      effect := fun _ f => { at_ f f.tr.pc with handler := false, tr := {} } }
  | .unassignedOpcodeIssue word => some { trapping s iss w none {} 0x01 word 0 with count := 0 }
  | _ => none

/-! ### Memory accesses (R127 to R133, R185, R248 to R259) -/

/-- sbase64 + SInt(vo) x k + off, or + NInt(vo) for LAUNCH, as a 64-bit number (R127, R185). -/
def address (m : MemAccess) (w : Warp) (f : Fibre) : Nat :=
  let k : Int := if m.scale then m.size else 1
  let vo : Int := if m.unsignedOff then (f.val m.vo).toNat else (f.val m.vo).toInt
  ((((w.sval64 m.sbase).toNat : Int) + vo * k + m.off) % 2 ^ 64).toNat

/-- x of R251. -/
def scratchX (m : MemAccess) (w : Warp) (f : Fibre) : Nat :=
  ((((w.sval m.sbase).toNat : Int) + (f.val m.vo).toInt * (if m.scale then m.size else 1)) % 2 ^ 32).toNat

/-- The core and the offset that a scratch address names: an LDS, STS or atomic stays on its own core (R251). -/
def scratchPlace (s : State) (iss : Issue) (m : MemAccess) (x : Nat) : Nat × Nat :=
  if m.space = .cluster then (x / 2 ^ 27, x % 2 ^ 27) else (s.coreNo iss.key % 32, x)

/-- Does the access act on two halves of a pair in different words (R256)? -/
def spansWords (m : MemAccess) (a : Nat) : Bool :=
  match m.op with
  | .atom _ .h2 | .atom _ .b2 | .red _ .h2 | .red _ .b2 => a % 4 == 2
  | _ => false

/-- The address at which a fibre's memory access passes the checks of R127, for each of two halves in different words, and meets no
range lock (R234). -/
def goodAddress (s : State) (iss : Issue) (w : Warp) (m : MemAccess) (f : Fibre) : Prop :=
  let a := address m w f
  a < 2 ^ 56 ∧ a % m.align = 0 ∧ (spansWords m a = true → a + 2 < 2 ^ 56) ∧
    ∀ r ∈ s.clusterLocks (s.coreNo iss.key), r.meetsMem (((s.launch? iss.key.lid).map (·.root)).getD 0) a m.size = false

/-- Where the access of an acting fibre lands, with the page that its last-page register then keeps (R219). -/
def Lands (s : State) (iss : Issue) (w : Warp) (m : MemAccess) (l : Lane) (f : Fibre) (p : Placed) (page : Option LastPage) :
    Prop :=
  let at_ (a : Nat) (pa : Nat) (q : LastPage) : Prop :=
    s.translateFor (s.coreNo iss.key) (((s.launch? iss.key.lid).map (·.root)).getD 0) a m.op.kind f.lastPage = .ok pa q
  p.lane = l ∧ p.data = m.data f ∧ p.dst = (match m.dst with
    | some (r, n) => f.entriesFrom r n
    | none => []) ∧
  match m.space with
  | .memory =>
    let a := address m w f
    goodAddress s iss w m f ∧ p.va = a ∧
      if spansWords m a then ∃ pa pa2 q q2, at_ a pa q ∧ at_ (a + 2) pa2 q2 ∧ p.loc = .mem pa ∧ p.loc2 = some (.mem pa2) ∧
        page = some q2
      else ∃ pa q, at_ a pa q ∧ p.loc = .mem pa ∧ p.loc2 = none ∧ page = some q
  | _ =>
    let x := scratchX m w f
    let c := scratchPlace s iss m x
    ∃ g la, s.scratchPeer iss.key c.1 = some g ∧ s.launch? iss.key.lid = some la ∧ c.2 + m.size ≤ la.record.scratch ∧
      c.2 % m.align = 0 ∧ (∀ r ∈ s.clusterLocks (s.coreNo iss.key), r.meetsScr g c.2 m.size = false) ∧
      p.va = c.2 ∧ p.loc = .scr g c.2 ∧ p.loc2 = (if spansWords m c.2 then some (.scr g (c.2 + 2)) else none) ∧ page = none

/-- A load (R129, R131): the destination is one entry, a pair or a quad. -/
def loads (f : FmtM) (size : Nat) (conv : LoadConv) (off : Int := 0) (scope : Scope := .package) : MemAccess :=
  { guard := f.g
    uses := { src := [vop f.vo f.fa, sop f.sbase false 2], dst := [vop f.r false (max 1 (size / 4))] }
    sbase := f.sbase, vo := f.vo, scale := f.scale, off := off, size := size, align := size, op := .load conv, scope := scope
    dst := some (f.r, max 1 (size / 4)) }
/-- A store (R129, R131): the low bytes of one entry, a pair or a quad. -/
def stores (f : FmtM) (size : Nat) (off : Int := 0) (scope : Scope := .package) : MemAccess :=
  let n := max 1 (size / 4)
  { guard := f.g, uses := { src := [vop f.r f.fa n, vop f.vo f.fa, sop f.sbase false 2] }
    sbase := f.sbase, vo := f.vo, scale := f.scale, off := off, size := size, align := size, op := .store, scope := scope
    data := fun x => ((List.range n).map (fun i => 2 ^ (32 * i) * (x.valAt f.r i).toNat)).sum % 2 ^ (8 * size) }
/-- A scratch load and store of a word (R250, R251). -/
def scratchLoads (f : FmtM) (space : Space) : MemAccess :=
  { guard := f.g, uses := { src := [vop f.vo f.fa, sop f.sbase], dst := [vop f.r] }, space := space
    sbase := f.sbase, vo := f.vo, scale := f.scale, size := 4, align := 4, op := .load .zext, dst := some (f.r, 1) }
def scratchStores (f : FmtM) (space : Space) : MemAccess :=
  { guard := f.g, uses := { src := [vop f.r f.fa, vop f.vo f.fa, sop f.sbase] }, space := space
    sbase := f.sbase, vo := f.vo, scale := f.scale, size := 4, align := 4, op := .store, data := fun x => (x.val f.r).toNat }

/-- The size of an atomic's element, and the alignment of its address (R254). -/
def elementSize (ty : AtomType) : Nat := if ty = .s64 ∨ ty = .n64 ∨ ty = .b64 then 8 else 4
def elementAlign (ty : AtomType) : Nat := if ty = .h2 ∨ ty = .b2 then 2 else elementSize ty
/-- The same of a compare and swap (R257). -/
def casSize : CasType → Nat
  | .b64 => 8
  | .b32 => 4
  | .b16 => 2
/-- An operand of one or two entries, as a number. -/
def operandOf (x : Fibre) (r : Reg) (size : Nat) : Nat := if size = 8 then (x.val64 r).toNat else (x.val r).toNat

/-- An atomic or reduction (R253): a base pair in memory, one s register in scratch. -/
def atomics (g : Guard) (m : AtomAddr) (size align : Nat) (op : MemOp) (src : List Reg) (fs : List Bool) (d : Option Reg)
    (data : Fibre → Nat) : MemAccess :=
  let n := if size = 8 then 2 else 1
  { guard := g
    uses := { src := [vop m.vo m.fa, sop m.sbase false (if m.sp then 1 else 2)] ++ (src.zip fs).map (fun e => vop e.1 e.2 n)
              dst := d.toList.map (fun r => vop r false n) }
    space := if m.sp then .scratch else .memory, sbase := m.sbase, vo := m.vo, scale := m.scale, size := size, align := align
    op := op, scope := m.scope, dst := d.map (fun r => (r, n)), data := data }

/-- The bytes and the conversion of a size code (R131). -/
def sizeCode : MemSize → Nat × LoadConv
  | .b8 => (1, .zext)
  | .s8 => (1, .sext8)
  | .b16 => (2, .zext)
  | .s16 => (2, .sext16)
  | .b32 => (4, .zext)
  | .b64 => (8, .words 2)
  | .b128 => (16, .words 4)

/-- The accesses of the memory instructions and of LAUNCH. -/
def accessTable : Instr → Option MemAccess
  | .ldB8 f => some (loads f 1 .zext)
  | .ldS8 f => some (loads f 1 .sext8)
  | .ldB16 f => some (loads f 2 .zext)
  | .ldS16 f => some (loads f 2 .sext16)
  | .ldB32 f => some (loads f 4 .zext)
  | .ldB64 f => some (loads f 8 (.words 2))
  | .ldB128 f => some (loads f 16 (.words 4))
  | .stB8 f => some (stores f 1)
  | .stB16 f => some (stores f 2)
  | .stB32 f => some (stores f 4)
  | .stB64 f => some (stores f 8)
  | .stB128 f => some (stores f 16)
  | .ldx f off size pol scope => some
      { loads f (sizeCode size).1 (sizeCode size).2 off.toInt scope with bypass := pol == .bypassL1 }
  | .stx f off size pol scope => some { stores f (sizeCode size).1 off.toInt scope with bypass := pol == .bypassL1 }
  | .lds f => some (scratchLoads f .scratch)
  | .sts f => some (scratchStores f .scratch)
  | .ldc f => some (scratchLoads f .cluster)
  | .stc f => some (scratchStores f .cluster)
  | .atom g d m b fb op ty => some (atomics g m (elementSize ty) (elementAlign ty) (.atom op ty) [b] [fb] (some d)
      (fun x => operandOf x b (elementSize ty)))
  | .red g m b fb op ty => some (atomics g m (elementSize ty) (elementAlign ty) (.red op ty) [b] [fb] none
      (fun x => operandOf x b (elementSize ty)))
  | .atomcas g d m b fb c fc ty pd => some (atomics g m (casSize ty) (casSize ty) (.cas ty pd) [b, c] [fb, fc] (some d)
      (fun x => operandOf x b (casSize ty) + 2 ^ 64 * operandOf x c (casSize ty)))
  | .launch g d a sb fa fb => some
      { guard := g, uses := { src := [vop a fa, sop sb fb 2], dst := [vop d] }, sbase := sb, vo := a, scale := false
        unsignedOff := true, size := 128, align := 128, op := .launch, dst := some (d, 1) }
  | _ => none

/-- May the warp log a further access (R222): its log has a free entry, and no acting fibre stands in one. -/
def LogFree (iss : Issue) (w : Warp) (g : Option Guard) : Prop :=
  acting iss w g ≠ [] → w.log.length < 4 ∧ ∀ l ∈ acting iss w g, ∀ e ∈ w.log, l ∉ e.2.mask

/-- No mismatch stands at a compared access of the warp in protected mode (R332, R337). -/
def Compared (s : State) (iss : Issue) (w : Warp) : Prop := s.isProt iss.key = true → w.mismatches = none

/-- What deterministic mode adds (R242, R246, R259): no floating atomic that returns a value, no store to this package's own
memory in a DETCNF launch, and room for every reduction that is held. -/
def DetOk (s : State) (iss : Issue) (m : MemAccess) (ps : List Placed) : Prop :=
  s.isDet iss.key = true → match m.op with
    | .atom _ ty => ty ≠ .f32 ∧ ty ≠ .h2 ∧ ty ≠ .b2
    | .store => (∃ la, s.launch? iss.key.lid = some la ∧ la.detcnf = true) → ∀ p ∈ ps, s.isOwnMem p.loc = false
    | .red .add ty => ty = .f32 ∨ ty = .h2 ∨ ty = .b2 → s.overflowing ps = []
    | _ => True

/-- The outstanding items of an access (R224, R256, R258). -/
def itemsOf (s : State) (iss : Issue) (w : Warp) (m : MemAccess) (ps : List Placed) : List Pend :=
  s.items { num := w.issues, pc := iss.pc, hdr := iss.hdr, words := (iss.w0, iss.w1), key := s.orderKey iss.key w
            spec := false, seq := s.tick, scope := m.scope, bypass := m.bypass } m.op m.size ps

/-- What an access makes of a fibre. -/
def accessed (ps : List (Placed × Option LastPage)) (l : Lane) (f : Fibre) : Fibre :=
  match ps.find? (fun p => p.1.lane == l) with
  | some p => { f.emptyEntries p.1.dst with lastPage := p.2.orElse (fun _ => f.lastPage) }
  | none => f

/-- The places of the acting fibres, in the order of the set. -/
def EachLands (s : State) (iss : Issue) (w : Warp) (m : MemAccess) (ps : List (Placed × Option LastPage)) : Prop :=
  ps.length = (actors iss w (some m.guard)).length ∧
    ∀ (j : Nat) e p, (actors iss w (some m.guard))[j]? = some e → ps[j]? = some p → Lands s iss w m e.1 e.2 p.1 p.2

/-- An access whose addresses pass every check and translate is outstanding: the destination entries of the acting fibres are
empty, their last-page registers keep the page, and the warp's items stand behind the earlier ones (R18, R130, R219, R224).
`ps` are the places of the acting fibres, in the order of the set, with the pages. -/
def Accesses (table : Instr → Option MemAccess) : Prop :=
  ∀ i m, table i = some m → WellFormed i → ∀ s iss w ps, Ready s iss w (some m.guard) m.uses →
    LogFree iss w (some m.guard) → (m.op.compared = true → Compared s iss w) → DetOk s iss m (ps.map Prod.fst) →
    EachLands s iss w m ps →
    ∃ t, exec i s = .next t ∧ Completes s t iss w
      (passing iss (some m.guard) (accessed ps))
      (fun x => { x with pend := x.pend ++ itemsOf s iss w m (ps.map Prod.fst) })

/-- The trap of an access that breaks a check of R127 or R251, or meets a range lock (R234): its cause word (R97) and its
information. -/
def badAccess (s : State) (iss : Issue) (w : Warp) (m : MemAccess) (f : Fibre) : Option (Nat × Word × Word) :=
  let locks := s.clusterLocks (s.coreNo iss.key)
  match m.space with
  | .memory =>
    let a := address m w f
    let info : Word × Word := (BitVec.ofNat 32 a, BitVec.ofNat 32 (a / 2 ^ 32))
    if 2 ^ 56 ≤ a then some (0x11, info)
    else if a % m.align ≠ 0 then some (0x12, info)
    else if spansWords m a = true ∧ 2 ^ 56 ≤ a + 2 then some (0x11, 0, 0x01000000)
    else if locks.any (fun r => r.meetsMem (((s.launch? iss.key.lid).map (·.root)).getD 0) a m.size) then some (0x15, info)
    else none
  | _ =>
    let x := scratchX m w f
    let c := scratchPlace s iss m x
    match s.scratchPeer iss.key c.1 with
    | none => some (0x11 + 4 * 2 ^ 9, BitVec.ofNat 32 x, 0)
    | some g =>
      if ((s.launch? iss.key.lid).map (·.record.scratch)).getD 0 < c.2 + m.size then some (0x11 + 4 * 2 ^ 9, BitVec.ofNat 32 x, 0)
      else if c.2 % m.align ≠ 0 then some (0x12, BitVec.ofNat 32 x, 0)
      else if locks.any (fun r => r.meetsScr g c.2 m.size) then some (0x15, BitVec.ofNat 32 c.2, 0)
      else none

/-- A trap whose cause and information each acting fibre forms for itself. -/
def trappingEach (s : State) (iss : Issue) (w : Warp) (g : Guard) (u : Uses) (tr : Fibre → Nat × Word × Word)
    (need : Prop := True) : Wide s :=
  { guard := some g, uses := u, need := need ∧ Handled s iss w (some g), moves := true
    effect := fun _ f => entered s iss f (tr f).1 (tr f).2.1 (tr f).2.2 f.pc f.hdr
    count := if acting iss w (some g) = [] then 1 else 0 }

/-- The accesses whose every acting fibre breaks a check. -/
def badAccessTable (s : State) (iss : Issue) (w : Warp) (i : Instr) : Option (Wide s) :=
  (accessTable i).map fun m => trappingEach s iss w m.guard m.uses (fun f => (badAccess s iss w m f).getD (0, 0, 0))
    (LogFree iss w (some m.guard) ∧ (m.op.compared = true → Compared s iss w) ∧
      (s.isDet iss.key = true → ∀ op ty, m.op = .atom op ty → ty ≠ .f32 ∧ ty ≠ .h2 ∧ ty ≠ .b2) ∧
      ∀ l f, l ∈ acting iss w (some m.guard) → w.fibre? l = some f → (badAccess s iss w m f).isSome = true)

/-! ### The traps of control flow and of the special registers (R23, R24, R93, R123, R126) -/

/-- DEPTH_OVERFLOW upwards, or WINDOW_OVERFLOW with the entries needed, of a call (R23). -/
def callTrap (w : Warp) (frame : Nat) (f : Fibre) : Option (Nat × Word × Word) :=
  if f.depth = 255 then some (0x0A, 0, 0)
  else if w.alloc ≤ f.wb + frame + 63 then some (0x09, BitVec.ofNat 32 (f.wb + frame + 64), 0)
  else none
/-- DEPTH_OVERFLOW downwards, or WINDOW_OVERFLOW, of a return (R24). -/
def retTrap (w : Warp) (f : Fibre) : Option (Nat × Word × Word) :=
  let v := (savedWord f).toNat
  if f.depth = 0 ∨ v / 2 ^ 24 ≠ f.depth - 1 then some (0x0A, 1, 0)
  else if v / 2 ^ 16 % 2 ^ 8 ≠ 0 ∨ v % 8 ≠ 0 ∨ f.wb ≤ v % 2 ^ 16 ∨ w.alloc ≤ v % 2 ^ 16 + 63 then some (0x09, 0, 0)
  else none
/-- The lanes that hold no fibre, which SPAWN may fill (R123). -/
def emptySlots (s : State) (iss : Issue) (w : Warp) : List Lane :=
  (List.range (s.widthOf iss.key)).filter (fun l => (w.fibre? l).isNone)
/-- Every acting fibre takes a trap of its own. -/
def allTrapping (s : State) (iss : Issue) (w : Warp) (g : Guard) (u : Uses) (tr : Fibre → Option (Nat × Word × Word)) : Wide s :=
  trappingEach s iss w g u (fun f => (tr f).getD (0, 0, 0))
    (∀ l f, l ∈ acting iss w (some g) → w.fibre? l = some f → (tr f).isSome = true)
/-- PRIVILEGED in every fibre of a set outside the handler, whatever the guard (R93, R126). -/
def privileged (s : State) (iss : Issue) (w : Warp) (need : Prop := True) : Wide s :=
  trapping s iss w none {} 0x04 iss.w0 (if iss.len = 2 then iss.w1 else 0) need

/-- CALL, CALLX and RET in which every acting fibre fails a check; SPAWN whose every creator has no window, or whose creators
find too few empty slots; TRET and SRSET of a trap register outside a handler. -/
def controlTrapTable (s : State) (iss : Issue) (w : Warp) : Instr → Option (Wide s)
  | .call g fc _ => some (allTrapping s iss w g {} (callTrap w (8 * fc.val)))
  | .callx g fc a fa => some (allTrapping s iss w g { src := [vop a fa] } (callTrap w (8 * fc.val)))
  | .ret g => some (allTrapping s iss w g { src := [vop 62, vop 63] } (retTrap w))
  | .spawn g d wo _ =>
    let u : Uses := { src := [{ reg := 8 * wo.val, count := 64 }], dst := [vop d] }
    let creators := actors iss w (some g)
    let tight (f : Fibre) : Prop := w.alloc ≤ f.wb + 8 * wo.val + 63
    if ∀ e ∈ creators, tight e.2 then
      some (trappingEach s iss w g u (fun f => (0x09, BitVec.ofNat 32 (f.wb + 8 * wo.val + 64), 0)))
    else some (trapping s iss w (some g) u 0x0B (BitVec.ofNat 32 (emptySlots s iss w).length) (BitVec.ofNat 32 creators.length)
      ((∀ e ∈ creators, ¬ tight e.2) ∧ (emptySlots s iss w).length < creators.length))
  | .tret _ => some (privileged s iss w)
  | .srset _ _ n => some (privileged s iss w (n ≠ .srgen))
  | _ => none

/-- TRET of one acting fibre whose trap registers name a word inside a clause: the header is fetched, and the fibre goes on at that
word, with the clause's words to be fetched again before it issues (R56, R126). A header that cannot be fetched leaves the fibre
to trap at that fetch. -/
def resumeInsideTable (s : State) (iss : Issue) (w : Warp) : Instr → Option (Wide s)
  | .tret g => match actors iss w (some g), s.launch? iss.key.lid with
    | [(_, f)], some la =>
      let past := (f.tr.pc - f.tr.hdr).toNat
      let r := s.fetchWord (s.coreNo iss.key) la f.tr.hdr
      some { guard := some g, moves := true, out := r.1
             need := (∀ l ∈ iss.sel.lanes, ∀ x, w.fibre? l = some x → x.handler = true) ∧ 0 < past ∧ past ≤ 15 ∧
               (∀ h, r.2 = .word h → past ≤ h.toNat % 2 ^ 4)
             effect := fun _ x => { x with handler := false, tr := {}, pc := x.tr.pc, hdr := x.tr.hdr, inside := true, body := []
                                           refetch := true } }
    | _, _ => none
  | _ => none

/-! ### LEA, FENCE and the cache operations (R133, R260 to R264) -/

/-- The address that a cache operation forms in a fibre. -/
def cacheAddress (w : Warp) (f : Fibre) (vo sbase : Reg) (k : Int) : Nat :=
  ((((w.sval64 sbase).toNat : Int) + (f.val vo).toInt * k) % 2 ^ 64).toNat

/-- The physical address that a cache operation of a fibre names, with the page of its translation: it does nothing beyond 56 bits, at
a locked byte (the model's choice of what is locked to it, log entry 131), and at a translation fault. -/
def cacheLine (s : State) (iss : Issue) (f : Fibre) (va : Nat) : Option (Nat × LastPage) :=
  let root := ((s.launch? iss.key.lid).map (·.root)).getD 0
  if 2 ^ 56 ≤ va ∨ ∃ r ∈ s.clusterLocks (s.coreNo iss.key), r.meetsMem root va 1 = true then none
  else match s.translateFor (s.coreNo iss.key) root va .read f.lastPage with
    | .ok pa page => some (pa, page)
    | _ => none

/-- The acting fibres whose address a cache operation translates, each with its place. -/
def cacheHits (s : State) (iss : Issue) (w : Warp) (g : Guard) (vo sbase : Reg) (scale : Bool) : List (Lane × Nat × LastPage) :=
  (actors iss w (some g)).filterMap (fun e =>
    (cacheLine s iss e.2 (cacheAddress w e.2 vo sbase (if scale then 128 else 1))).map (fun a => (e.1, a)))
/-- A translated cache operation fills the last-page register of its fibre (R219). -/
def pageKept (hits : List (Lane × Nat × LastPage)) (l : Lane) (f : Fibre) : Fibre :=
  match hits.find? (fun e => e.1 == l) with
  | some e => { f with lastPage := some e.2.2 }
  | none => f

/-- LEA; FENCE, which flushes the warp's combining-buffer entries and leaves the warp behind an unresolved fence; CCTL, counted
until it completes, whose L1INV drops the core's copies of this package's lines; PREFETCH, which below stage 1 of the throttle order
(R345; log entry 132) brings each line of this package's memory that it names, unless it names the home slice alone, the line
holds poison, or the core has no L1 bank (R202), into the core's L1 with a lease. -/
def cacheTable (s : State) (iss : Issue) (w : Warp) : Instr → Option (Wide s)
  | .lea f off size => some
      { guard := some f.g
        uses := { src := [vop f.vo f.fa, sop f.sbase false 2], dst := [vop f.r false 2] }
        effect := fun _ x => x.setV64 f.r (BitVec.ofInt 64 (((w.sval64 f.sbase).toNat : Int) +
          (x.val f.vo).toInt * (if f.scale then ((sizeCode size).1 : Int) else 1) + off.toInt)) }
  | .fence g scope => some
      { guard := some g, need := LogFree iss w (some g)
        before := if acting iss w (some g) = [] then s else s.flushWarp iss.key
        rest := fun x => if acting iss w (some g) = [] then x else { x with spec := some { num := w.issues + 1, scope := scope } } }
  | .cctl g op vo sbase fa scale =>
    let hits := cacheHits s iss w g vo sbase scale
    some { guard := some g, uses := { src := [vop vo fa, sop sbase false 2] }, need := LogFree iss w (some g)
           effect := pageKept hits
           rest := fun x => { x with pend := x.pend ++ hits.map (fun e =>
             { num := w.issues, lane := e.1, kind := .cacheOp, pc := iss.pc, hdr := iss.hdr }) }
           out := if op = .l1inv then (hits.filter (fun e => decide (packageOf e.2.1 = s.domid))).foldl (fun s e =>
             s.modCore (s.coreNo iss.key) (fun c => { c with l1 := ndel c.l1 (lineOf (localOf e.2.1)) })) s else s }
  | .prefetch g sliceOnly vo sbase fa scale =>
    let hits := if s.grid.stage = 0 then cacheHits s iss w g vo sbase scale else []
    let own (pa : Nat) : Prop := packageOf pa = s.domid ∧ s.region (localOf pa) ≠ .control
    let lines := hits.filter (fun e => !sliceOnly && decide (own e.2.1) && !s.poisoned (lineOf (localOf e.2.1) * 128) 128 &&
      (s.core (s.coreNo iss.key)).banks 0 != 0)
    some { guard := some g, uses := { src := [vop vo fa, sop sbase false 2] }, need := LogFree iss w (some g)
           effect := pageKept hits
           out := lines.foldl (fun s e => let line := lineOf (localOf e.2.1)
             (s.leaseCore (s.coreNo iss.key) line).copyIn (s.coreNo iss.key) line) s }
  | _ => none

/-- The start of ICINV (R262) in fibres that all have a good address: the warp's earlier reductions are flushed, and it waits, with its
set, for the 64 KiB pages that the fibres name. -/
def IcinvBegins : Prop :=
  ∀ g scope vo sbase fa scale s iss w, WellFormed (.icinv g scope vo sbase fa scale) →
    Ready s iss w (some g) { src := [vop vo fa, sop sbase false 2] } → acting iss w (some g) ≠ [] → LogFree iss w (some g) →
    let at_ (f : Fibre) := cacheAddress w f vo sbase (if scale then 4 else 1)
    (∀ e ∈ actors iss w (some g), at_ e.2 < 2 ^ 56 ∧ at_ e.2 % 4 = 0) →
    exec (.icinv g scope vo sbase fa scale) s = .next ((s.flushWarp iss.key).modWarp iss.key (fun x => { x with
      waiting := .icinv scope ((actors iss w (some g)).map (fun e => at_ e.2 / 2 ^ 16)).eraseDups, released := false
      sel := some { iss.sel with blocked := false } }))

/-! ### Instructions that end or make fibres (R122 to R124) -/

/-- The lowest acting lane, and its fibre (R293). -/
def lead (iss : Issue) (w : Warp) (g : Guard) : Lane := ((actors iss w (some g)).head?.map (·.1)).getD 0
/-- A value of the lowest acting fibre. -/
def leadVal (iss : Issue) (w : Warp) (g : Guard) (a : Reg) : Word := ((actors iss w (some g)).head?.map (·.2.val a)).getD 0

/-- The new fibres of a SPAWN with their creators, in ascending lane of both (R123). -/
def spawns (s : State) (iss : Issue) (w : Warp) (g : Guard) : List (Lane × Lane × Fibre) :=
  ((List.range (s.widthOf iss.key)).filter (fun l => (w.fibre? l).isNone)).zip (actors iss w (some g))

/-- A new fibre (R122): it has the creator's predicates and the 64 entries of its window, a generator seeded for its own
identity, and stands at the entry with nothing else. -/
def child (s : State) (iss : Issue) (wo : Nat) (disp : Word) (lane : Lane) (f : Fibre) : Fibre :=
  let seed := ((s.launch? iss.key.lid).map (·.record.seed)).getD 0
  { pc := f.hdr + disp, hdr := f.hdr + disp, gen := genSeed seed (identity iss.key lane), wb := f.wb + 8 * wo, preds := f.preds
    entries := f.entries.filter (fun e => decide (f.wb + 8 * wo ≤ e.1 ∧ e.1 < f.wb + 8 * wo + 64)) }

/-- What the end of its last fibre makes of a warp: it has ended, and holds no entries and no s registers (R124, R194). -/
def endedWarp (x : Warp) : Warp := { x with ended := true, mask := 0, waiting := .none, alloc := 0, sregs := [] }

/-- QUIT of the last fibres of a warp whose group stays: an access of the warp is outstanding, or another warp of the group has
not ended. The warp ends, and passes the turn. -/
def lastQuitTable (s : State) (iss : Issue) (w : Warp) : Instr → Option (Wide s)
  | .quit g =>
    let before := (acting iss w (some g)).foldl Warp.quitLane w
    some { guard := some g
           need := (∀ e ∈ actors iss w (some g), ∀ j, (e.2.entry j).full = true) ∧ w.ended = false ∧ acting iss w (some g) ≠ [] ∧
             (∀ l f, w.fibre? l = some f → l ∈ acting iss w (some g)) ∧ iss.key ∈ s.warpsOf (s.groupKey iss.key) ∧
             (w.pend ≠ [] ∨ ∃ k x, k ∈ s.warpsOf (s.groupKey iss.key) ∧ k ≠ iss.key ∧ s.warp? k = some x ∧ x.ended = false)
           before := s.setWarp iss.key before, rest := endedWarp
           out := { (s.setWarp iss.key (endedWarp before)).passTurn iss.key with warps := (s.setWarp iss.key before).warps } }
  | _ => none

/-- QUIT of the last fibres of a group none of whose accesses, log entries and commands is outstanding: the group and its warps are
gone, and the launch counts one ended group more, or, with its last group, is finished: its outcome is remembered, its identifier is
free and its completion word is due (R180, R194). When a group is taken away is the model's
choice (log entry 116). Memory is the same but where the end of a launch applies its deterministic reductions. -/
def LastQuitEndsGroup : Prop :=
  ∀ g s iss w c q la, Ready s iss w (some g) {} → acting iss w (some g) ≠ [] → w.ended = false → w.pend = [] → w.log = [] →
    (∀ e ∈ actors iss w (some g), ∀ j, (e.2.entry j).full = true) → (∀ l f, w.fibre? l = some f → l ∈ acting iss w (some g)) →
    let k := s.groupKey iss.key
    s.group? k = some q → q.place = .resident c → s.launch? iss.key.lid = some la →
    iss.key ∈ s.warpsOf k → (∀ k' ∈ s.warpsOf k, ∀ x, k' ≠ iss.key → s.warp? k' = some x → x.ended = true ∧ x.pend = [] ∧ x.log = []) →
    (∀ x ∈ s.groupCommands k c, x.stage = .ended) →
    ∃ t, exec (.quit g) s = .next t ∧ (∀ k' ∈ s.warpsOf k, t.warp? k' = none) ∧ t.group? k = none ∧
      (la.groupsEnded + 1 < la.record.groups → (∀ a, memByte t.mem a = memByte s.mem a) ∧
        (t.launch? iss.key.lid).map (·.groupsEnded) = some (la.groupsEnded + 1)) ∧
      (la.record.groups ≤ la.groupsEnded + 1 → la.record.lid = iss.key.lid → t.launch? iss.key.lid = none ∧
        (∀ b ∈ t.bars, b.1.lid ≠ iss.key.lid) ∧ (∀ e ∈ t.tags, e.2.lid ≠ iss.key.lid) ∧
        { lid := iss.key.lid, root := la.root, done := la.record.done, state := if la.failed.isSome then 3 else 1
          code := (la.failed.map (fun e => e.2.toNat)).getD 0 } ∈ t.front.finished ∧
        ((∀ e ∈ s.launches, ∀ n, e.2.stage ≠ .accepted n) →
          (iss.key.lid, (if la.failed.isSome then 3 else 1), (la.failed.map (fun e => e.2.toNat)).getD 0) ∈ t.front.outcomes))

/-- SPAWN and QUIT. QUIT is said here of an issue that leaves some fibre of its warp. -/
def fibreTable (s : State) (iss : Issue) (w : Warp) : Instr → Option (Wide s)
  | .spawn g d wo disp =>
    let made := spawns s iss w g
    some { guard := some g, uses := { src := [{ reg := 8 * wo.val, count := 64 }], dst := [vop d] }
           need := (∀ e ∈ actors iss w (some g), e.2.wb + 8 * wo.val + 63 < w.alloc) ∧
             made.length = (actors iss w (some g)).length
           before := s.setWarp iss.key (made.foldl (fun x e => x.setFibre e.1 (child s iss wo.val disp e.1 e.2.2)) w)
           effect := fun l f => f.setV d (BitVec.ofNat 32 (((made.find? (fun e => e.2.1 == l)).map (·.1)).getD 0)) }
  | .quit g => some
      { guard := some g
        need := (∀ e ∈ actors iss w (some g), ∀ j, (e.2.entry j).full = true) ∧ w.ended = false ∧
          (∃ l f, w.fibre? l = some f ∧ l ∉ acting iss w (some g)) ∧ iss.key ∈ s.warpsOf (s.groupKey iss.key)
        before := s.setWarp iss.key ((acting iss w (some g)).foldl Warp.quitLane w) }
  | _ => none

/-! ### Barriers (R165 to R169) -/

/-- A warp marked for shedding stops at its next pre-emption point once it issues a barrier instruction or STEP (R348). -/
def marked (x : Warp) : Warp := if x.shedMark then { x with stopMark := true } else x
/-- The state, outside the warps, after the warp that stands as `w'` passed the turn (R151). -/
def turnPassed (s : State) (iss : Issue) (w' : Warp) : State :=
  { (s.setWarp iss.key w').passTurn iss.key with warps := s.warps }
/-- BARRIER_MEMBERSHIP or BARRIER_BUSY, with the barrier operand of R165. -/
def barrierTrapping (s : State) (iss : Issue) (w : Warp) (g : Guard) (u : Uses) (cause : Nat) (o : BarOp) (need : Prop := True) :
    Wide s :=
  trapping s iss w (some g) u cause (BitVec.ofNat 32 (o.scope.code * 32 + o.index.val)) 0 need
/-- Is the member past the wait for the phase it arrived in (R167): its arrival is counted, and the parity has turned? -/
def waitIsOver (s : State) (w : Warp) (o : BarOp) (b : BarKey) : Prop :=
  w.hasArrive o = false ∧ (w.arrivedBit o = false ∨ (s.barrier b).parity ≠ w.aparBit o)

/-- ARRIVE, WAIT when nothing holds it, INIT and DROP, whose effect the store gate holds (R329), and TEST, each with no INIT or DROP of
the warp on that barrier in the gate; and the membership trap: of TEST, which reads the warp's own bits (R168), only where the launch
holds no such barrier (R164). -/
def barrierTable (s : State) (iss : Issue) (w : Warp) : Instr → Option (Wide s)
  | .barArrive g o => on g o {} (fun _ =>
      let rest := fun (x : Warp) => { marked x with pend := x.pend ++
        [{ num := w.issues, lane := 64, kind := .arrive o w.order, pc := iss.pc, hdr := iss.hdr }] }
      { guard := some g, rest := rest, out := turnPassed s iss (rest w) })
  | .barWait g o => on g o {} (fun b =>
      let rest := fun (x : Warp) => (marked x).setArrived o false
      { guard := some g, need := waitIsOver s w o b, rest := rest, out := turnPassed s iss (rest w) })
  | .barSync g o => (s.mayAddress iss.key o).elim (some (barred g o (barrierTrapping s iss w g {} 0x25 o))) (fun _ => none)
  | .barInit g a o => on g o { src := [vop a] } (fun b =>
      let e := (leadVal iss w g a).toNat
      holding s iss w g { src := [vop a] } (.setE o e) ((s.barrier b).engines = 0 ∧ 1 ≤ e ∧ e ≤ maxE b.scope) (first := marked))
  | .barDrop g o => on g o {} (fun b => holding s iss w g {} (.dropOut o) ((s.barrier b).engines = 0) (first := marked))
  | .barTest g pd o => some (barred g o (match s.barKey? iss.key o with
    | none => barrierTrapping s iss w g {} 0x25 o
    | some b =>
      { guard := some g, need := w.hasArrive o = false, rest := marked
        effect := fun _ f => f.setPred pd (!w.arrivedBit o || (s.barrier b).parity != w.aparBit o) }))
  | _ => none
where
  /-- Some fibre acts, and no effect on the barrier stands in the gate. -/
  barred (g : Guard) (o : BarOp) (m : Wide s) : Wide s :=
    { m with need := acting iss w (some g) ≠ [] ∧ w.holdsBarrier o = false ∧ m.need }
  /-- What the instruction does for a warp that may address the barrier; else BARRIER_MEMBERSHIP. -/
  on (g : Guard) (o : BarOp) (u : Uses) (k : BarKey → Wide s) : Option (Wide s) :=
    some (barred g o (match s.mayAddress iss.key o with
      | some b => k b
      | none => barrierTrapping s iss w g u 0x25 o))

/-- BAR.INIT and BAR.DROP while an engine command holds the barrier: BARRIER_BUSY; INIT with an E out of range:
BARRIER_MEMBERSHIP (R169). -/
def barrierBusyTable (s : State) (iss : Issue) (w : Warp) : Instr → Option (Wide s)
  | .barInit g a o => (s.mayAddress iss.key o).map fun b =>
      let e := (leadVal iss w g a).toNat
      let busy : Bool := decide (0 < (s.barrier b).engines)
      { barrierTrapping s iss w g { src := [vop a] } (if busy then 0x24 else 0x25) o
          (acting iss w (some g) ≠ [] ∧ w.holdsBarrier o = false ∧ (busy = true ∨ e = 0 ∨ maxE b.scope < e)) with rest := marked }
  | .barDrop g o => (s.mayAddress iss.key o).map fun b =>
      { barrierTrapping s iss w g {} 0x24 o
          (acting iss w (some g) ≠ [] ∧ w.holdsBarrier o = false ∧ 0 < (s.barrier b).engines) with rest := marked }
  | _ => none

/-! ### The deque (R186 to R188, R195) -/

/-- A push on the core's deque (R187): the item goes to the bottom unless the deque is full or another launch's. -/
def pushOne (c : Nat) (lid : Word) (v : DWord) (s : State) : State × List Word :=
  let q := (s.core c).deque
  let fits := q.items.length < 256 ∧ (q.owner = none ∨ q.owner = some lid)
  (s.modCore c (fun k => { k with deque := if fits then { owner := some lid, items := q.items ++ [v] } else q }),
    [if fits then 1 else 0])
/-- The deque after an item left it: an empty one has no owner. -/
def left (q : Deque) (l : List DWord) : Deque := { owner := if l = [] then none else q.owner, items := l }
/-- An item in two words, with the status 1. -/
def taken (x : DWord) : List Word := [x.setWidth 32, (x >>> 32).setWidth 32, 1]
/-- A pop from the bottom. -/
def popOne (c : Nat) (lid : Word) (s : State) : State × List Word :=
  let q := (s.core c).deque
  let there := q.owner = some lid ∧ q.items ≠ []
  (s.modCore c (fun k => { k with deque := if there then left q q.items.dropLast else q }),
    if there then taken (q.items.getLastD 0) else [0, 0, 0])
/-- The victims of a steal (R188): the quad's other cores, then the cluster's, each round beginning above the thief. -/
def victims (c : Nat) : List Nat :=
  [1, 2, 3].map (fun i => c / 4 * 4 + (c % 4 + i) % 4) ++
  ((List.range 32).map (fun i => c / 32 * 32 + (c % 32 + i) % 32)).filter (fun d => d / 4 ≠ c / 4)
/-- A steal from the top of the first victim that has an item of the launch. -/
def stealOne (c : Nat) (lid : Word) (s : State) : State × List Word :=
  match (victims c).find? (fun d => (s.core d).deque.owner == some lid && !(s.core d).deque.items.isEmpty) with
  | none => (s, [0, 0, 0])
  | some d =>
    let q := (s.core d).deque
    (s.modCore d (fun k => { k with deque := left q q.items.tail }), taken (q.items.headD 0))

/-- The operation of one fibre. -/
def dequeOne (a : DequeAct) (c : Nat) (lid : Word) (v : DWord) (s : State) : State × List Word :=
  match a with
  | .push => pushOne c lid v s
  | .pop => popOne c lid s
  | .steal => stealOne c lid s
/-- The fibres operate on a deque one after another: the state at the end, and each lane's destinations with its words. -/
def inTurn (s : State) (a : DequeAct) (c : Nat) (lid : Word) (l : List (Lane × DWord × List Nat)) :
    State × List (Lane × List (Nat × Word)) :=
  l.foldl (fun acc e =>
    let r := dequeOne a c lid e.2.1 acc.1
    (r.1, acc.2 ++ [(e.1, e.2.2.zip r.2)])) (s, [])

/-- PUSH, POP and STEAL: the destinations are empty, and the operation of each acting fibre stands in the store gate, in order with the
warp's stores (R187, R329). What it does as it leaves the gate is stated of the gate. -/
def dequeTable (s : State) (iss : Issue) (w : Warp) : Instr → Option (Wide s)
  | .deqPush g vs a fa => some (operating g { src := [vop a fa 2], dst := [vop vs] } (fun f => f.entriesFrom vs 1) .push (·.val64 a))
  | .deqPop g d vs => some (operating g { dst := [vop d false 2, vop vs] } (fun f => f.entriesFrom d 2 ++ f.entriesFrom vs 1) .pop
      (fun _ => 0))
  | .deqSteal g d vs => some (
      if s.isDet iss.key then trapping s iss w (some g) { dst := [vop d false 2, vop vs] } 0x38 0 0
      else operating g { dst := [vop d false 2, vop vs] } (fun f => f.entriesFrom d 2 ++ f.entriesFrom vs 1) .steal (fun _ => 0))
  | _ => none
where
  /-- The shape of the three. -/
  operating (g : Guard) (u : Uses) (dst : Fibre → List Nat) (a : DequeAct) (operand : Fibre → DWord) : Wide s :=
    holding s iss w g u (.deque a ((actors iss w (some g)).map (fun e => (e.1, operand e.2, dst e.2)))) (Compared s iss w)
      (fun _ f => f.emptyEntries (dst f))

/-! ### Registers, steps and power (R189 to R192, R338, R339) -/

/-- REG.GROW to what the warp has; REG.SHRINK; PWR.HINT; LANECHK; and the traps of the first two and of STEP and LANECHK. -/
def resourceTable (s : State) (iss : Issue) (w : Warp) : Instr → Option (Wide s)
  | .regGrow g n =>
    if 8 * n.toNat ≤ w.alloc then some { guard := some g }
    else if 65536 < s.otherEntries iss.key + s.widthOf iss.key * (8 * n.toNat) then
      some (trapping s iss w (some g) {} 0x09 (BitVec.ofNat 32 (8 * n.toNat)) 0)
    else none
  | .regShrink g n =>
    let a := 8 * n.toNat
    let top := w.slots.foldl (fun m e => max m (e.2.wb + 64)) 0
    if w.alloc ≤ a then some { guard := some g }
    else if a < top then some (trapping s iss w (some g) {} 0x09 (BitVec.ofNat 32 top) 0)
    else some { guard := some g
                need := acting iss w (some g) ≠ [] ∧ ∀ e ∈ w.slots, ∀ x ∈ e.2.entries, a ≤ x.1 → x.2.full = true
                before := s.setWarp iss.key { w with
                  alloc := a
                  slots := nmap (fun _ f => { f with entries := f.entries.filter (fun e => decide (e.1 < a)) }) w.slots } }
  | .step g d sb fb => (s.launch? iss.key.lid).bind fun la =>
      if la.cores ∧ w.sval sb = la.stepNo + 1 then none
      else some (trapping s iss w (some g) { src := [sop sb fb], dst := [vop d] } 0x25 (w.sval sb) la.stepNo)
  | .pwrHint g h => some (holding s iss w g {} (.hint h))
  | .lanechk g d groups =>
    let c := s.coreNo iss.key
    let lanes := s.failedLanes c groups.toNat 0
    let banks := s.failedLanes c groups.toNat 1
    let s' := banks.foldl (fun s u => s.retire c 1 u) (lanes.foldl (fun s u => s.retire c 0 u) s)
    some (if s.isDet iss.key then trapping s iss w (some g) { dst := [vop d false 2] } 0x38 0 0
      else { producer s iss w g { dst := [vop d false 2] } (fun f => f.entriesFrom d 2)
              (fun _ _ => [BitVec.ofNat 32 (lanes.map (2 ^ ·)).sum, BitVec.ofNat 32 (banks.map (2 ^ ·)).sum])
              (acting iss w (some g) ≠ [] ∧ s.grid.stage = 0 ∧ (s'.warp? iss.key).isSome = true) s' with
             before := s' })
  | _ => none

/-! ### A wait that is over (R56, R167, R189, R192, R262) -/

/-- The warp is in the wait of its own instruction. -/
structure Resumed (s : State) (iss : Issue) (w : Warp) : Prop where
  issue : s.issue = some iss
  warp : s.warp? iss.key = some w
  ascending : iss.sel.lanes.Pairwise (· < ·)
  fibres : ∀ l ∈ iss.sel.lanes, (w.fibre? l).isSome = true
  settled : w.spec = none
  unarmed : s.inject.arm = false

/-- Every instruction of a table completes when its wait is over. -/
def Resumes (table : (s : State) → Issue → Warp → Instr → Option (Wide s)) : Prop :=
  ∀ s iss w i m, table s iss w i = some m → Resumed s iss w → m.need →
    ∃ t w', exec i s = .next t ∧ m.before.warp? iss.key = some w' ∧
      Completes m.before t iss w' (passing iss m.guard m.effect) m.rest m.out m.count

/-- WAIT and SYNC once the phase has turned, REG.GROW once the entries are granted, STEP at the boundary (the new number of
dies in vd), and ICINV once it is complete. -/
def resumeTable (s : State) (iss : Issue) (w : Warp) : Instr → Option (Wide s)
  | .barWait g o | .barSync g o => (s.barKey? iss.key o).map fun b =>
      let rest := fun (x : Warp) => { (marked x).setArrived o false with waiting := .none }
      { guard := some g, need := acting iss w (some g) ≠ [] ∧ w.waiting = .barrier o ∧ w.holdsBarrier o = false ∧ waitIsOver s w o b
        rest := rest, out := turnPassed s iss (rest w) }
  | .regGrow g n => some
      { guard := some g, need := w.waiting = .grow (8 * n.toNat) ∧ (w.released = true ∨ 8 * n.toNat ≤ w.alloc)
        rest := fun x => { x with waiting := .none } }
  | .step g d _ _ => (s.launch? iss.key.lid).map fun la =>
      { guard := some g, need := w.waiting = .step ∧ w.released = true, rest := fun x => { x with waiting := .none }
        effect := fun _ f => f.setV d (BitVec.ofNat 32 la.dies.length) }
  | .icinv g scope _ _ _ _ => some
      { guard := some g, need := (∃ pages, w.waiting = .icinv scope pages) ∧ w.released = true
        rest := fun x => { x with waiting := .none } }
  | _ => none

/-! ### CVTX with a format slot (R116, R292), and FP16 and FP8 below S2 (R100) -/

/-- CVTX with S = 1: mode and saturation are the slot's; a slot that is not usable traps FORMAT_SLOT. -/
def slotTable (s : State) (iss : Issue) (w : Warp) : Instr → Option (Wide s)
  | .cvtx g d a fa dst src _ _ true slot => (s.launch? iss.key.lid).bind fun la =>
    let u : Uses := { src := [vop a fa (entriesOf src)], dst := [vop d false (entriesOf dst)] }
    let v := la.slot slot.val
    if slotUsable s.level v = false then some (trapping s iss w (some g) u 0x22 (BitVec.ofNat 32 slot.val) 0)
    else if s.level = 2 ∨ (needsLevel2 dst = false ∧ needsLevel2 src = false) then
      some { guard := some g, uses := u
             effect := fun _ x => stepIf (slotMode v) 1
               (writeAs dst d (convert dst src (slotMode v) (v.getLsbD 16) x.gen (sourceOf src a x)) x) }
    else none
  | _ => none

/-- Below S2 an instruction with an FP16 or FP8 value takes FORMAT_SLOT with 0xFF. -/
def lowTable (s : State) (iss : Issue) (w : Warp) (i : Instr) : Option (Wide s) :=
  ((fp16Table i).orElse (fun _ => (convTable i).bind (fun m => if m.2 then some m.1 else none))).map fun m =>
    trapping s iss w m.guard m.uses 0x22 0xFF 0 (s.level ≠ 2)

/-! ### Tiles (R276 to R280, R295, R307, R308) -/

/-- May the tile be configured, filled or zeroed now; read; freed (R279)? -/
def openTile (t : Tile) : Prop := t.state = .empty ∨ (t.state = .ready ∧ t.readers = 0)
def fillable (t : Tile) : Prop := t.cfg = true ∧ openTile t
def readable (t : Tile) : Prop := t.cfg = true ∧ t.state = .ready ∧ t.readers < 255

/-- A tile whose fill is complete, one that is freed while it has readers, one that is being filled, and one that is read. -/
def filledTile (t : Tile) (img : NMap Byte) : Tile := { t with state := .ready, image := img }
def drainingTile (t : Tile) : Tile := { t with state := .draining }
def fillingTile (t : Tile) : Tile := { t with state := .filling }
def readTile (t : Tile) : Tile := { t with readers := t.readers + 1 }

/-- The status word (R280). -/
def tileStatus (t : Tile) : Word :=
  BitVec.ofNat 32 (t.readers % 256 * 2 ^ 8 + (if t.cfg then 2 ^ 2 else 0) + (match t.state with
    | .empty => 0
    | .filling => 1
    | .ready => 2
    | .draining => 3))

/-- No effect on these tiles stands in the store gate (R329). -/
def untouched (w : Warp) (ts : List TileReg) : Prop := w.holdsTile (ts.map (·.val)) = false

/-- The state outside the warps after a command of plan `p` was issued under a number: the ring slot is opened or drained, the
completion barrier counts one engine more, and the core holds the command, which stands in the store gate, and its boxes. -/
def commandOut (s : State) (iss : Issue) (w : Warp) (g : Guard) (i : Instr) (p : Plan) (n : Nat) : State :=
  let s1 := s.modGroup (s.groupKey iss.key) fun q =>
    let q := if p.opens then q.openRing (s.accs iss.key) else q
    if p.consumes then q.setSlot p.slot { q.slot p.slot with state := .draining } else q
  let s2 := if p.params.bv then (s.barKey? iss.key ⟨.core, Fin.ofNat 16 p.params.bidx⟩).elim s1 (fun b =>
      s1.setBarrier b { s1.barrier b with engines := (s1.barrier b).engines + 1 }) else s1
  s2.modCore (s.coreNo iss.key) fun k => { k with
    cmds := nput k.cmds n
      { num := n, key := iss.key, lane := lead iss w g, pc := iss.pc, hdr := iss.hdr, w0 := iss.w0
        w1 := if iss.len = 2 then iss.w1 else 0, instr := i, params := p.params
        gen := ((actors iss w (some g)).head?.map (·.2.gen)).getD 0, slot := p.slot, reads := p.reads
        fill := p.fill, stage := .gated, seq := s.tick }
    locks := k.locks ++ p.boxes.map (fun b => { cmd := n, box := b.1, write := b.2 }) }

/-- A command of plan `p` whose checks pass and whose waits are met makes every issue-time effect in one step (R294): on its tiles, its
generator, its ring slot, its barrier and its locks. It stands in the store gate (R329). -/
def starting (s : State) (iss : Issue) (w : Warp) (g : Guard) (u : Uses) (i : Instr) (p : Plan) (n : Nat) (need : Prop) : Wide s :=
  { holding s iss w g u (.command n (p.fill.map (fun t => (w.tile t).state))) need
      (fun l f => if l = lead iss w g ∧ p.steps ≠ 0 then { f with gen := genSteps p.steps f.gen } else f)
      (fun x => p.fill.toList.foldl (fun x t => x.setTile t (fillingTile (x.tile t)))
        (p.reads.foldl (fun x t => x.setTile t (readTile (x.tile t))) x)) with
    out := commandOut s iss w g i p n }

/-- The tile instructions. TCFG, TZERO, TFREE and TMOV.set leave their effect in the store gate; a tile that an effect in the gate
acts on is waited for (R329). -/
def tileTable (s : State) (iss : Issue) (w : Warp) : Instr → Option (Wide s)
  | .tcfg g t sb fb => (s.launch? iss.key.lid).map fun la =>
      let ctl := w.sval sb
      let h : Shape := ⟨ctlRows ctl, ctlCols ctl, la.slot (ctlSlot ctl)⟩
      holding s iss w g { src := [sop sb fb] } (.tile t.val (.configure ctl))
        (untouched w [t] ∧ slotUsable s.level h.slot = true ∧ ctlOk ctl = true ∧
          h.blocksOk = true ∧ s.otherFootprints iss.key t.val + h.footprint ≤ la.record.tiles ∧ openTile (w.tile t.val))
  | .tstat g d t => some
      { guard := some g, uses := { dst := [vop d] }, need := untouched w [t]
        effect := fun _ f => f.setV d (tileStatus (w.tile t.val)) }
  | .tzero g t => some (holding s iss w g {} (.tile t.val .zero) (usable t ∧ fillable (w.tile t.val)))
  | .tfree g t => some (holding s iss w g {} (.tile t.val .free)
      (untouched w [t] ∧ (w.tile t.val).cfg = true ∧ ((w.tile t.val).state = .empty ∨ (w.tile t.val).state = .ready)))
  | .tmovGet g d t b fb =>
    let img := (w.tile t.val).image
    some (producer s iss w g { src := [vop b fb], dst := [vop d] } (fun f => f.entriesFrom d 1)
      (fun _ f => [BitVec.ofNat 32 (ofBytes (imgBytes img (4 * (f.val b).toNat) 4))])
      (acting iss w (some g) ≠ [] ∧ usable t ∧ readable (w.tile t.val) ∧ inFootprint g t.val b))
  | .tmovSet g v t b fa fb => some (holding s iss w g { src := [vop v fa, vop b fb] }
      (.tile t.val (.words ((actors iss w (some g)).map (fun e => ((e.2.val b).toNat, e.2.val v)))))
      (usable t ∧ fillable (w.tile t.val) ∧ inFootprint g t.val b))
  | .tcvt g m mode ta t =>
    match s.planTcvt m mode ta t (context iss w (some g)) with
    | .ok (some p) => some (starting s iss w g {} (.tcvt g m mode ta t) p (s.core (s.coreNo iss.key)).freeConversion (untouched w [ta, t]))
    | _ => none
  | _ => none
where
  /-- Nothing in the gate acts on the tile, and its slot is usable. -/
  usable (t : TileReg) : Prop := untouched w [t] ∧ slotUsable s.level (s.tileShape iss.key (w.tile t.val)).slot = true
  /-- Every acting fibre's word index lies in the tile's footprint. -/
  inFootprint (g : Guard) (t : Nat) (b : Reg) : Prop :=
    ∀ e ∈ actors iss w (some g), (e.2.val b).toNat < (s.tileShape iss.key (w.tile t)).footprint / 4

/-- The traps of the tile instructions that do not depend on a fibre: TILE_STATE of a tile that the event is not allowed for
(R279), FORMAT_SLOT of its slot, and TILE_SHAPE of a control word (R278). -/
def tileTrapTable (s : State) (iss : Issue) (w : Warp) : Instr → Option (Wide s)
  | .tzero g t => some (stateTrap g {} t (¬ (w.tile t.val).cfg = true ∨ (w.tile t.val).state = .draining))
  | .tfree g t => some (trapping s iss w (some g) {} 0x20 (BitVec.ofNat 32 t.val) 0
      (untouched w [t] ∧ (¬ (w.tile t.val).cfg = true ∨ (w.tile t.val).state = .draining)))
  | .tmovGet g d t b fb => some (stateTrap g { src := [vop b fb], dst := [vop d] } t
      (¬ (w.tile t.val).cfg = true ∨ (w.tile t.val).state = .empty ∨ (w.tile t.val).state = .draining))
  | .tmovSet g v t b fa fb => some (stateTrap g { src := [vop v fa, vop b fb] } t
      (¬ (w.tile t.val).cfg = true ∨ (w.tile t.val).state = .draining))
  | .tcfg g t sb fb => (s.launch? iss.key.lid).bind fun la =>
      let ctl := w.sval sb
      let h : Shape := ⟨ctlRows ctl, ctlCols ctl, la.slot (ctlSlot ctl)⟩
      let u : Uses := { src := [sop sb fb] }
      if slotUsable s.level h.slot = false then some (trapping s iss w (some g) u 0x22 (BitVec.ofNat 32 (ctlSlot ctl)) 0 (untouched w [t]))
      else if ctlOk ctl = false ∨ h.blocksOk = false ∨ la.record.tiles < s.otherFootprints iss.key t.val + h.footprint then
        some (trapping s iss w (some g) u 0x21 (BitVec.ofNat 32 t.val) 0 (untouched w [t]))
      else if (w.tile t.val).state = .draining then some (trapping s iss w (some g) u 0x20 (BitVec.ofNat 32 t.val) 0 (untouched w [t]))
      else none
  | _ => none
where
  /-- TILE_STATE of a tile, after the check of its slot. -/
  stateTrap (g : Guard) (u : Uses) (t : TileReg) (bad : Prop) : Wide s :=
    let h := s.tileShape iss.key (w.tile t.val)
    if (w.tile t.val).cfg = true ∧ slotUsable s.level h.slot = false then
      trapping s iss w (some g) u 0x22 (BitVec.ofNat 32 (ctlSlot (w.tile t.val).ctl)) 0 (untouched w [t])
    else trapping s iss w (some g) u 0x20 (BitVec.ofNat 32 t.val) 0 (untouched w [t] ∧ bad)

/-- TILE_SHAPE of TMOV whose every acting word index lies outside the footprint (R308), and the checks of TCVT in their order
(R307): the slots, the configuration, the shapes, and the states of both tiles; a word that names one tile for both is no
instruction (R64). -/
def tileShapeTable (s : State) (iss : Issue) (w : Warp) : Instr → Option (Wide s)
  | .tmovGet g d t b fb => some (outside g { src := [vop b fb], dst := [vop d] } t b
      ((w.tile t.val).state = .ready ∨ (w.tile t.val).state = .filling))
  | .tmovSet g v t b fa fb => some (outside g { src := [vop v fa, vop b fb] } t b ((w.tile t.val).state ≠ .draining))
  | .tcvt g _ _ ta t =>
    let x := w.tile ta.val
    let y := w.tile t.val
    let bad (z : Tile) : Prop := z.cfg = true ∧ slotUsable s.level (s.tileShape iss.key z).slot = false
    let trap (cause : Nat) (info0 : Word) : Option (Wide s) := some (trapping s iss w (some g) {} cause info0 0 (untouched w [ta, t]))
    let number (n : Nat) : Word := BitVec.ofNat 32 n
    if bad x then trap 0x22 (number (ctlSlot x.ctl))
    else if bad y then trap 0x22 (number (ctlSlot y.ctl))
    else if x.cfg = false then trap 0x20 (number ta.val)
    else if y.cfg = false then trap 0x20 (number t.val)
    else if (s.tileShape iss.key x).rows ≠ (s.tileShape iss.key y).rows ∨ (s.tileShape iss.key x).cols ≠ (s.tileShape iss.key y).cols
      then trap 0x21 (number t.val)
    else if x.state = .empty ∨ x.state = .draining then trap 0x20 (number ta.val)
    else if y.state = .draining then trap 0x20 (number t.val)
    else none
  | _ => none
where
  /-- Every acting fibre names a word outside the footprint of a configured tile in a fit state. -/
  outside (g : Guard) (u : Uses) (t : TileReg) (b : Reg) (fit : Prop) : Wide s :=
    let h := s.tileShape iss.key (w.tile t.val)
    trapping s iss w (some g) u 0x21 (BitVec.ofNat 32 t.val) 0 (untouched w [t] ∧ (w.tile t.val).cfg = true ∧ fit ∧
      slotUsable s.level h.slot = true ∧ ∀ e ∈ actors iss w (some g), h.footprint / 4 ≤ (e.2.val b).toNat)

/-! ### Engine commands (R293 to R310) -/

/-- The plan that the checks of an engine command lead to (R294, R302, R304, R305): its parameters, tiles, ring slot, boxes and
generator steps. -/
def planned (s : State) (iss : Issue) (w : Warp) (g : Guard) : Instr → Option (Except Trap Plan)
  | .mma _ sp ta tb slot opn _ _ => some (s.planMma sp ta tb slot opn (context iss w (some g)))
  | .epi _ sp t dst _ fslot rsc csc rbi cbi _ => some (s.planEpi sp t dst fslot (rsc || csc || rbi || cbi) (context iss w (some g)))
  | .copy _ sp t src dst mode esz _ => some (s.planCopy sp t src dst mode esz (context iss w (some g)))
  | _ => none

/-- The guard, the register of the parameter block, and the tiles that the words name. -/
def commandOf : Instr → Option (Guard × Reg × List Nat)
  | .mma g sp ta tb .. => some (g, sp, [ta.val, tb.val])
  | .epi g sp t dst .. => some (g, sp, if dst = .tile then [t.val] else [])
  | .copy g sp t src dst .. => some (g, sp, if src = .tile ∨ dst = .tile then [t.val] else [])
  | _ => none

/-- MMA, EPI and COPY are issued when their checks pass and all their waits can be met together (R294); nothing that they depend on
stands in the store gate (R329). -/
def commandTable (s : State) (iss : Issue) (w : Warp) (i : Instr) : Option (Wide s) :=
  (commandOf i).bind fun (g, sp, ts) =>
    let x := context iss w (some g)
    let reads : Prop := s.blockWaits x sp = false ∧ s.onHeld x i ts = false
    match planned s iss w g i with
    | some (.ok p) => some (starting s iss w g { src := [sop sp] } i p (((s.core (s.coreNo iss.key)).freeNumber).getD 0)
        (Compared s iss w ∧ reads ∧ s.canStart x p = true))
    | some (.error t) => some
        (trapping s iss w (some g) { src := [sop sp] } t.word.toNat t.info0 t.info1 (acting iss w (some g) ≠ [] ∧ reads))
    | none => none

/-! ### Named tiles (R377 to R383) -/

/-- The name in three s registers. -/
def nameIn (w : Warp) (sb : Reg) : Name := ⟨w.svalAt sb 0, w.svalAt sb 1, w.svalAt sb 2⟩
/-- The lifetime of an interest (R377): the instruction's own, else the launch's, else 10,000 µs, and at most a second. -/
def lifeOf (s : State) (iss : Issue) (w : Warp) (sb : Reg) : Nat :=
  let own := (w.svalAt sb 3).toNat
  let launch := ((s.launch? iss.key.lid).map (·.record.lifetime)).getD 0
  min 1000000 (if own ≠ 0 then own else if launch ≠ 0 then launch else 10000)

/-- PUB, GET, RETIRE and DROP leave their effect in the store gate (R329); what it does as it leaves the gate is stated of the gate,
and what the hub does, of its messages. -/
def nameTable (s : State) (iss : Issue) (w : Warp) : Instr → Option (Wide s)
  | .namePub g t sb fb => some (holding s iss w g { src := [sop sb fb 4] } (.name (.pub t.val (nameIn w sb)))
      (Compared s iss w ∧ usable t ∧ readable (w.tile t.val)))
  | .nameGet g t sb fb => some (holding s iss w g { src := [sop sb fb 4] }
      (.name (.get t.val (nameIn w sb) (lifeOf s iss w sb) (lead iss w g)))
      (Compared s iss w ∧ usable t ∧ fillable (w.tile t.val)))
  | .nameRetire g sb fb => some (holding s iss w g { src := [sop sb fb 4] } (.name (.retire (nameIn w sb))) (Compared s iss w))
  | .nameDrop g t => some (holding s iss w g {} (.name (.drop t.val)) (Compared s iss w ∧ untouched w [t]))
  | _ => none
where
  /-- Nothing in the gate acts on the tile, and its slot is usable. -/
  usable (t : TileReg) : Prop := untouched w [t] ∧ slotUsable s.level (s.tileShape iss.key (w.tile t.val)).slot = true

/-- The traps of PUB, a read of its tile, and of GET, a fill: FORMAT_SLOT of the tile's slot, and TILE_STATE (R279, R380, R381). -/
def nameTrapTable (s : State) (iss : Issue) (w : Warp) : Instr → Option (Wide s)
  | .namePub g t sb fb => some (tileTrapTable.stateTrap s iss w g { src := [sop sb fb 4] } t
      (¬ (w.tile t.val).cfg = true ∨ (w.tile t.val).state = .empty ∨ (w.tile t.val).state = .draining))
  | .nameGet g t sb fb => some (tileTrapTable.stateTrap s iss w g { src := [sop sb fb 4] } t
      (¬ (w.tile t.val).cfg = true ∨ (w.tile t.val).state = .draining))
  | _ => none

/-! ### An instruction that no fibre of its set executes (R17) -/

/-- The guard of the instructions whose conditions above ask for an acting fibre. -/
def idleGuard : Instr → Option Guard
  | .barArrive g _ | .barWait g _ | .barSync g _ | .barInit g _ _ | .barDrop g _ | .barTest g _ _ => some g
  | .deqPush g .. | .deqPop g .. | .deqSteal g .. => some g
  | .regGrow g _ | .regShrink g _ | .step g .. | .pwrHint g _ | .lanechk g .. => some g
  | .tcfg g .. | .tzero g _ | .tfree g _ | .tmovGet g .. | .tmovSet g .. | .tcvt g .. => some g
  | .mma g .. | .epi g .. | .copy g .. | .namePub g .. | .nameGet g .. | .nameRetire g .. | .nameDrop g .. => some g
  | .icinv g .. | .cctl g .. | .prefetch g .. | .fence g _ | .launch g .. | .atom g .. | .atomcas g .. | .red g .. => some g
  | _ => none

/-- They pass such an issue and change nothing. -/
def Idles : Prop :=
  ∀ i g, idleGuard i = some g → ∀ s iss w, Ready s iss w (some g) {} → acting iss w (some g) = [] →
    ∃ t, exec i s = .next t ∧ Completes s t iss w (passing iss (some g) (fun _ f => f))

/-! ## The steps of the other agents -/

/-- What a step of another agent does: the condition on the state and the arguments, and what holds of the next state. -/
structure Event where
  need : Prop := True
  post : State → Prop

/-- Every step of a table makes its next state when its condition holds. -/
def Happens (table : State → Instr → Option Event) : Prop :=
  ∀ s i e, table s i = some e → e.need → ∃ t, exec i s = .next t ∧ e.post t

/-- No byte of package memory changed, except those of a range. -/
def MemSame (s t : State) : Prop := ∀ a, memByte t.mem a = memByte s.mem a
def MemSameBut (s t : State) (a n : Nat) : Prop := ∀ b, b < a ∨ a + n ≤ b → memByte t.mem b = memByte s.mem b
/-- No other warp changed. -/
def WarpsSameBut (s t : State) (k : WarpKey) : Prop := ∀ k', k' ≠ k → t.warp? k' = s.warp? k'

/-! ### Registers of the control region that hold a value (R385) -/

/-- What a 4-byte write to a register that only holds a value does, block by block: a launch queue, the front end, the translation
block, the injection block, the checkpoint block, the boot block, the router, and a die's fault queue and clusters. A base does
not change while its queue is enabled, nor a range or a save area while it is in use. -/
def plainWrite (s : State) (off : Nat) (v : Word) : Option State :=
  let at_ := off % 0x100000
  let die := off / 0x100000 - 1
  let queue (i : Nat) (f : FaultQueue → FaultQueue) : State := s.modDie i (fun x => { x with fq := f x.fq })
  if off < 0x400 then
    let q := s.queue (off / 0x40)
    let en : Bool := q.ctl.getLsbD 5
    let put (q : LaunchQueue) : Option State := some (s.setQueue (off / 0x40) q)
    match off % 0x40 with
    | 0x00 => put (if en then q else { q with baseLo := v })
    | 0x04 => put (if en then q else { q with baseHi := v })
    | 0x14 => put { q with cfgerr := q.cfgerr && !v.getLsbD 2, overrun := q.overrun && !v.getLsbD 1 }
    | 0x18 => put (if en then q else { q with rootLo := v &&& 0xFFFFE000 })
    | 0x1C => put (if en then q else { q with rootHi := v &&& 0x7FF })
    | _ => none
  else if 0x100000 ≤ off ∧ off < 0x500000 then
    match at_ with
    | 0x00 => some (queue die fun q => if q.ctl.getLsbD 5 then q else { q with baseLo := v &&& 0xFFFFFFC0 })
    | 0x04 => some (queue die fun q => if q.ctl.getLsbD 5 then q else { q with baseHi := v })
    | 0x10 => some (queue die fun q => { q with cons := v })
    | 0x14 => some (queue die fun q => { q with cfgerr := q.cfgerr && !v.getLsbD 0 })
    | 0x18 => some (queue die fun q => { q with delay := v.toNat % 2 ^ 16 })
    | 0x1C => some (queue die fun q => { q with rtag := v })
    | _ =>
      if 0x40000 ≤ at_ ∧ at_ < 0x40C00 then
        let put (f : Cluster → Cluster) : Option State := some (s.modCluster (12 * die + (at_ - 0x40000) / 0x100) f)
        match at_ % 0x100 with
        | 0x00 => put fun k => { k with refill := v.toNat % 2 ^ 20 }
        | 0x04 => put fun k => { k with peak := v.toNat % 2 ^ 16 }
        | 0x18 => put fun k => if k.retained then k else { k with crLo := v &&& 0xFFFF0000 }
        | 0x1C => put fun k => if k.retained then k else { k with crHi := v &&& 0x7FF }
        | 0x20 => put fun k => if k.retained then k else { k with crSz := v.toNat % 2 ^ 16 }
        | _ => none
      else none
  else match off with
  | 0x400 => some { s with front := { s.front with elid := v } }
  | 0x404 => some { s with front := { s.front with etgt := v.toNat % 8 } }
  | 0x420 => some { s with front := { s.front with swapLid := v } }
  | 0x430 => some { s with front := { s.front with dsetLid := v } }
  | 0x434 => some { s with front := { s.front with dsetN := v &&& 0x1FFF1FFF } }
  | 0x1000 => some (if s.tlbi.busy then s else { s with tlbi := { s.tlbi with vaLo := v &&& 0xFFFF0000 } })
  | 0x1004 => some (if s.tlbi.busy then s else { s with tlbi := { s.tlbi with vaHi := v &&& 0xFFFFFF } })
  | 0x1008 => some (if s.tlbi.busy then s else { s with tlbi := { s.tlbi with npg := v.toNat % 2 ^ 20 } })
  | 0x3000 => some { s with inject := { s.inject with lid := v } }
  | 0x3004 => some { s with inject := { s.inject with warp := v } }
  | 0x3008 => some { s with inject := { s.inject with cntLo := v } }
  | 0x300C => some { s with inject := { s.inject with cntHi := v } }
  | 0x4008 => some (if s.ck.busy then s else { s with ck := { s.ck with lid := v } })
  | 0x400C => some (if s.ck.busy then s else { s with ck := { s.ck with step := v } })
  | 0x4010 => some (if s.ck.busy then s else { s with ck := { s.ck with buddy := v.toNat % 2 ^ 13 } })
  | 0x4040 => some (if s.ck.busy then s else { s with ck := { s.ck with nreg := v.toNat % 2 ^ 16 } })
  | 0x4044 => some (if s.ck.busy then s else { s with ck := { s.ck with half := v.toNat } })
  | 0x4088 => some { s with ck := { s.ck with rsSrc := v &&& 0x1FFF0007 } }
  | 0x408C => some { s with ck := { s.ck with rsBusy := s.ck.rsBusy || v.getLsbD 0 } }
  | 0x5420 => some { s with boot := { s.boot with atSel := BitVec.ofNat 8 v.toNat } }
  | 0x5808 => some (if s.boot.iftStat = 1 then s else { s with boot := { s.boot with iftLen := v } })
  | 0x10004 => some { s with router := { s.router with rtimeout := v.toNat % 2 ^ 16 } }
  | 0x10030 => some { s with router := { s.router with plog := { s.router.plog with cons := v } } }
  | _ => none

/-- What a 4-byte read of a register that a read does not change gives, of those blocks and of the grid block. -/
def plainRead (s : State) (off : Nat) : Option Nat :=
  let at_ := off % 0x100000
  let flag (b : Bool) (i : Nat) : Nat := if b then 2 ^ i else 0
  if off < 0x400 then
    let q := s.queue (off / 0x40)
    match off % 0x40 with
    | 0x00 => some q.baseLo.toNat | 0x04 => some q.baseHi.toNat | 0x08 => some q.ctl.toNat | 0x0C => some q.prod.toNat
    | 0x10 => some q.cons.toNat | 0x14 => some (flag q.cfgerr 2 + flag q.overrun 1 + flag q.head.isSome 0)
    | 0x18 => some q.rootLo.toNat | 0x1C => some q.rootHi.toNat | _ => some 0
  else if 0x100000 ≤ off ∧ off < 0x500000 then
    let q := (s.die (off / 0x100000 - 1)).fq
    let c := s.core (384 * (off / 0x100000 - 1) + (at_ - 0x80000) / 0x10)
    match at_ with
    | 0x00 => some q.baseLo.toNat | 0x04 => some q.baseHi.toNat | 0x08 => some q.ctl.toNat | 0x0C => some q.prod.toNat
    | 0x10 => some q.cons.toNat | 0x18 => some q.delay | 0x1C => some q.rtag.toNat
    | _ =>
      if 0x40000 ≤ at_ ∧ at_ < 0x40C00 then
        let k := s.cluster (12 * (off / 0x100000 - 1) + (at_ - 0x40000) / 0x100)
        match at_ % 0x100 with
        | 0x00 => some k.refill | 0x04 => some k.peak | 0x08 => some k.bal | 0x0C => some k.debt | 0x18 => some k.crLo.toNat
        | 0x1C => some k.crHi.toNat | 0x20 => some k.crSz | _ => none
      else if 0x80000 ≤ at_ ∧ at_ < 0x81800 then
        match at_ % 0x10 with
        | 0 => some c.roleLo.toNat | 4 => some c.roleHi.toNat | 8 => some (flag c.refused 0) | _ => some 0
      else none
  else match off with
  | 0x400 => some s.front.elid.toNat | 0x404 => some s.front.etgt | 0x408 => some s.front.detLid.toNat | 0x420 => some s.front.swapLid.toNat
  | 0x428 => some s.front.violLid.toNat | 0x430 => some s.front.dsetLid.toNat | 0x434 => some s.front.dsetN.toNat
  | 0x1000 => some s.tlbi.vaLo.toNat | 0x1004 => some s.tlbi.vaHi.toNat | 0x1008 => some s.tlbi.npg | 0x1010 => some s.tlbi.gen.toNat
  | 0x2000 => some (flag s.grid.stepEn 1 + flag s.grid.curveEn 0)
  | 0x2004 => some (flag s.grid.linkLost 9 + flag s.grid.backstop 8 + flag s.grid.unmet 7 + flag s.grid.cfgErr 6 +
      s.grid.sub * 16 + s.grid.stage)
  | 0x2044 => some s.grid.freq | 0x2048 => some s.grid.vbus | 0x204C => some (s.grid.stepId * 2 ^ 16 + s.grid.stepCeil)
  | 0x2050 => some s.grid.target | 0x2054 => some s.grid.pmeas
  | 0x3000 => some s.inject.lid.toNat | 0x3004 => some s.inject.warp.toNat
  | 0x4014 => some (flag s.ck.busy 31 + s.ck.enables.toNat * 2 + flag s.ck.arm 0)
  | 0x4018 => some (s.ck.stat.toNat * 2 + flag s.ck.abandoned 0)
  | 0x408C => some (flag s.ck.rsBusy 31) | 0x4090 => some s.ck.rsStat.toNat | 0x4094 => some s.ck.rsStep.toNat
  | 0x5000 => some (s.boot.err * 2 ^ 24 + s.boot.errStage * 2 ^ 16 + s.level) | 0x5810 => some s.boot.iftStat
  | 0x10000 => some s.domid | 0x10004 => some s.router.rtimeout | 0x10008 => some (s.router.store.length * 2 ^ 16 + s.router.pit.length)
  | 0x1002C => some s.router.plog.prod.toNat | 0x10030 => some s.router.plog.cons.toNat
  | _ => none

/-- An offset of a 32-bit register: aligned, and on no half of a 64-bit one. -/
def wordRegister (s : State) (off : Nat) : Prop := off % 4 = 0 ∧ s.reg64 (off / 8 * 8) = none

/-! ### The checks of a launch record (R175, R176, R179) -/

/-- The reasons for refusing a record, in the order in which they are applied (R179). What the empty dies take (0x0A) is the model's
reading, log entry 77. -/
def reasons (s : State) (r : LaunchRec) : List (Nat × Prop) :=
  let width := if r.flags.getLsbD 1 then 32 else 64
  let fibres := if r.fibres = 0 then r.warps * width else r.fibres
  let groups := r.gridx * r.gridy * r.gridz
  let inService (c : Nat) : Prop := c < (if s.level = 2 then 1536 else if s.level = 1 then 384 else 0)
  let takes := ((List.range r.maxdies).map (s.dieTakes r)).sum
  [ (0x01, r.reserved ≠ 0 ∨ 2 ^ 7 ≤ r.flags.toNat ∨ 4 ≤ r.cls),
    (0x02, r.codebase.toNat % 4 ≠ 0 ∨ 2 ^ 56 ≤ r.codebase.toNat ∨ r.done.toNat % 8 ≠ 0),
    (0x03, r.regs % 8 ≠ 0 ∨ r.regs < 64 ∨ 256 < r.regs),
    (0x04, r.warps < 1 ∨ 16 < r.warps ∨ r.warps * width < fibres ∨ fibres ≤ (r.warps - 1) * width),
    (0x05, (r.gang ≠ 1 ∧ r.gang ≠ 4 ∧ r.gang ≠ 32) ∨ groups % r.gang ≠ 0),
    (0x06, r.gridx = 0 ∨ r.gridy = 0 ∨ r.gridz = 0),
    (0x07, 65536 < r.warps * width * r.regs ∨ 8 < r.accs ∨
      ∀ c, inService c → 16384 * (s.core c).banks 1 < r.scratch ∨ 16384 * (s.core c).banks 2 < r.tiles),
    (0x08, r.mindies = 0 ∨ r.maxdies < r.mindies ∨ 4 < r.maxdies),
    (0x09, (r.flags.getLsbD 5 = true ∨ r.flags.getLsbD 3 = true) ∧ r.flags.getLsbD 2 = false),
    (0x0A, r.flags.getLsbD 2 = true ∧ takes < groups / max 1 r.gang),
    (0x0B, r.lid = 0 ∨ (s.launch? r.lid).isSome = true),
    (0x0C, ∃ p ∈ r.pred, p ≠ 0 ∧ p ≠ r.lid ∧ s.launch? p = none ∧ ∃ o ∈ s.front.outcomes, o.1 = p ∧ o.2.1 ≠ 1),
    (0x0D, s.level ≠ 2 ∧ (1 < r.mindies ∨ r.flags.getLsbD 5 = true ∨ s.front.dsetLid = r.lid)) ]
/-- A record passes every check; or it is refused with the code of the first that fails. -/
def Accepted (s : State) (r : LaunchRec) : Prop := ∀ e ∈ reasons s r, ¬ e.2
def Refused (s : State) (r : LaunchRec) (code : Nat) : Prop :=
  ∃ before bad after, reasons s r = before ++ (code, bad) :: after ∧ bad ∧ ∀ e ∈ before, ¬ e.2

/-! ### Outstanding accesses (R18, R224, R231, R233, R245, R246, R329, R385) -/

/-- The warp's group is resident in a cluster that is awake, the warp has not ended and is behind no unresolved FENCE, and this
item of it may move: it is the first that waits for its issue and lane, and nothing before it holds it: `ready` says so, of an access
by what it must wait for. -/
structure Movable (s : State) (k : WarpKey) (w : Warp) (p : Pend) (f : Pend → Bool) (ready : Prop := s.ready k w p = true) :
    Prop where
  warp : s.warp? k = some w
  alive : w.ended = false
  settled : w.spec = none
  member : k ∈ s.warpsOf (s.groupKey k)
  first : w.waitingItem p.num p.lane f = some p
  moves : s.moves k = true
  ready : ready

/-- Nothing that the gate holds stands before an item of it (R329). -/
def gateTurn (w : Warp) (p : Pend) : Prop :=
  p.stage = .waiting ∧ p.spec = false ∧ ∀ q ∈ itemsBefore p w.pend, q.inGate = false
/-- Nothing of the warp stands before an item, its core holds no reduction, and its log is empty. -/
def firstOf (s : State) (k : WarpKey) (w : Warp) (p : Pend) : Prop :=
  itemsBefore p w.pend = [] ∧ w.log = [] ∧ (s.core (s.coreNo k)).comb = []

/-- Nothing of the core's combining buffer touches a range, and no deterministic reduction whose phase is over waits there. -/
def clear (s : State) (k : WarpKey) (a n : Nat) : Prop :=
  (∀ e ∈ (s.core (s.coreNo k)).comb, e.touches a n = false) ∧
  ∀ r ∈ s.heldReds, r.due = true → overlaps (r.pa / 4 * 4) 4 a n = false
/-- The range is clear, and no byte of it is poisoned. -/
def quiet (s : State) (k : WarpKey) (a n : Nat) : Prop := clear s k a n ∧ s.poisoned a n = false

/-- The n bytes at a place: of package memory, or of a group's scratch. -/
def bytesAt (s : State) (l : Loc) (n : Nat) : Nat :=
  match l with
  | .mem pa => ofBytes (memBytes s.mem (localOf pa) n)
  | .scr g off => s.scratchVal g off n
/-- No byte of a place's memory or scratch changed but the n at the place, and no other byte of package memory. -/
def OnlyAt (s t : State) (l : Loc) (n : Nat) : Prop :=
  match l with
  | .mem pa => MemSameBut s t (localOf pa) n
  | .scr g off => MemSame s t ∧ ∀ b, b < off ∨ off + n ≤ b → t.scratchVal g b 1 = s.scratchVal g b 1
/-- An update of one element of package memory or of scratch (R224, R255): its bytes take the new value, where the operation makes
one. -/
def updated (s t : State) (l : Loc) (n : Nat) (u : Update) : Prop :=
  OnlyAt s t l n ∧ bytesAt t l n = ((u.apply n (bytesAt s l n)).getD (bytesAt s l n)) % 2 ^ (8 * n)
/-- An element may be updated now: this package's own memory, which no reduction holds and which has no poison; or the scratch of a
group. -/
def free (s : State) (k : WarpKey) (l : Loc) (n : Nat) : Prop :=
  match l with
  | .mem pa => s.isOwnMem l = true ∧ quiet s k (localOf pa) n
  | .scr g _ => (s.group? g).isSome = true
/-- The old value of a fibre's atomic, from that of one unit: the two halves of a pair in different words come together when the
second of them is performed; until then the other unit keeps the value (R256). -/
def oldValue (u : AtomUnit) (v : Nat) : Option Nat :=
  if !u.straddles then some v else u.other.map (fun o => if u.part = 0 then v + o * 2 ^ 16 else o + v * 2 ^ 16)
/-- The other half keeps the value. -/
def keepOther (num : Nat) (u : AtomUnit) (v : Nat) (q : Pend) : Pend :=
  match q.kind with
  | .atom us d p => if q.num = num then
      { q with kind := .atom (us.map (fun x => if x.lane = u.lane ∧ x.part ≠ u.part then { x with other := some v } else x)) d p }
      else q
  | _ => q

/-- What a tile is after an effect that left the gate (R279, R329). -/
def tileAfter (h : Shape) (a : TileAct) (x : Tile) : Tile :=
  match a with
  | .configure ctl => { ctl := ctl, cfg := true }
  | .zero => filledTile x (zeroImage h)
  | .free => if x.state = .ready ∧ x.readers ≠ 0 then drainingTile x else {}
  | .words l => filledTile x (l.foldl (fun m e => imgSetWord h m e.1 e.2) x.image)
/-- A barrier whose count has reached its E turns to the next phase (R169). -/
def turnsIfDue (x : Barrier) : Barrier :=
  if 0 < x.e ∧ x.e ≤ x.count then { x with count := 0, parity := !x.parity, top := 0 } else x

/-- The writeback of a formed result, of a load of scratch and of one of the package's own memory, before which a reduction that rests
there is performed (R233); of a LAUNCH, whose record is read and handed over (R185; what of R179 the model adds: log entries 77 and
140); the release of a store, an atomic and a reduction to the package's own memory, the first two to scratch also; a deterministic
atomic of one unit applied at its slice; loads and stores of control registers (R385); the effects that the gate holds, and a barrier
arrival (R167, R329). In each the item is gone afterwards. -/
def accessEvents (s : State) (k : WarpKey) (w : Warp) (p : Pend) : Instr → Option Event
  | .longLatencyWriteback lid wn num lane =>
    if k = ⟨lid, wn⟩ ∧ num = p.num ∧ lane = p.lane then
      match p.kind with
      | .regs ws => some { need := Movable s k w p Pend.writesBack True, post := written (fun f => f.fillEntries ws) }
      | .load (.scr g off) n conv dst => some
          { need := Movable s k w p Pend.writesBack
            post := written (fun f => f.fillEntries (dst.zip (conv.toWords (s.scratchVal g off n)))) }
      | .launch (.mem pa) dst =>
        let r := LaunchRec.parse (memBytes s.mem (localOf pa) 128)
        some
          { need := Movable s k w p Pend.writesBack ∧ firstOf s k w p ∧ s.isOwnMem (.mem pa) = true ∧ quiet s k (localOf pa) 128 ∧
              (s.launch? lid).isSome = true
            post := fun t => ∃ code, filled (fun f => f.fillEntries (dst.zip [BitVec.ofNat 32 code])) t ∧
              (256 ≤ s.front.device.length → code = 0xFF) ∧
              (s.front.device.length < 256 → (∀ c, Refused s r c → code = c) ∧ (Accepted s r → code = 0 ∧
                ∃ la, t.launch? r.lid = some la ∧ la.record = r ∧ la.stage = .accepted 16 ∧ (s.launch? lid).map (·.root) = some la.root)) ∧
              t.front.device = s.front.device ++ (if code = 0 then [r.lid] else []) }
      | .load (.mem pa) n conv dst =>
        let off := localOf pa % 2 ^ 40
        let back (v : Nat) : Fibre → Fibre := fun f => f.fillEntries (dst.zip (conv.toWords v))
        if s.isControl (.mem pa) = true then (plainRead s off).map fun v =>
          { need := Movable s k w p Pend.writesBack ∧ n = 4 ∧ wordRegister s off, post := written (back (v % 2 ^ 32)) }
        else match (s.core (s.coreNo k)).comb with
          | [e] => some
              { need := Movable s k w p Pend.writesBack ∧ s.isOwnMem (.mem pa) = true ∧ s.poisoned (localOf pa) n = false ∧ p.spec = false ∧
                  e.pa < 2 ^ 43 ∧ e.touches (localOf pa) n = true ∧ e.halves = 3 ∧ s.poisoned e.pa e.ty.size = false ∧
                  ∀ r ∈ s.heldReds, r.due = true → overlaps (r.pa / 4 * 4) 4 (localOf pa) n = false
                post := fun t => updated s t (.mem e.pa) e.ty.size (.op e.op e.ty e.x) ∧ (t.core (s.coreNo k)).comb = [] ∧
                  filled (back (ofBytes (memBytes t.mem (localOf pa) n))) t }
          | _ => some
              { need := Movable s k w p Pend.writesBack ∧ s.isOwnMem (.mem pa) = true ∧ quiet s k (localOf pa) n ∧ p.spec = false
                post := written (back (ofBytes (memBytes s.mem (localOf pa) n))) }
      | _ => none
    else none
  | .storeGateRelease lid wn num lane =>
    if k = ⟨lid, wn⟩ ∧ num = p.num ∧ lane = p.lane then
      match p.kind with
      | .store (.mem pa) b =>
        let off := localOf pa % 2 ^ 40
        if s.isControl (.mem pa) = true then (plainWrite s off (BitVec.ofNat 32 (ofBytes b))).map fun u =>
          { need := Movable s k w p Pend.isGated ∧ b.length = 4 ∧ wordRegister s off
            post := fun t => gone t ∧ { t with warps := s.warps } = u }
        else some
          { need := Movable s k w p Pend.isGated ∧ s.isOwnMem (.mem pa) = true ∧ s.isDet k = false ∧
              (s.launch? lid).isSome = true ∧ clear s k (localOf pa) b.length
            post := fun t => MemSameBut s t (localOf pa) b.length ∧
              memBytes t.mem (localOf pa) b.length = b ∧ gone t }
      | .store (.scr g off) b => some
          { need := Movable s k w p Pend.isGated ∧ free s k (.scr g off) b.length
            post := fun t => OnlyAt s t (.scr g off) b.length ∧ bytesAt t (.scr g off) b.length = ofBytes b ∧ gone t }
      | .atom [u] ds pred =>
        let old := bytesAt s u.loc u.size
        let dst : Option (List Nat) := match ds with
          | [] => some []
          | [(l, d)] => if l = u.lane then some d else none
          | _ => none
        dst.map fun d =>
          { need := Movable s k w p Pend.isGated ∧ free s k u.loc u.size ∧ (s.isDet k = false ∨ ds = [] ∨ s.isOwnMem u.loc = false) ∧
              (u.size = 2 ∨ u.size = 4 ∨ u.size = 8) ∧ u.lane = p.lane ∧ (u.straddles = true → pred = none) ∧
              (pred ≠ none → ∃ ty e n, u.upd = .cas ty e n) ∧ (ds = [] → pred = none)
            post := fun t => updated s t u.loc u.size u.upd ∧ (match oldValue u old with
              | some v => filled (fun f =>
                  let f := f.fillEntries (d.zip [BitVec.ofNat 32 v, BitVec.ofNat 32 (v / 2 ^ 32)])
                  match pred, u.upd with
                  | some q, .cas _ e _ => f.setPred (Fin.ofNat 8 q) (old == e.toNat % 2 ^ (8 * u.size))
                  | _, _ => f) t
              | none => fibresAs (fun f => f) t ∧ (t.warp? k).map (·.pend) =
                  some (if ds = [] then w.pend.erase p else (w.pend.erase p).map (keepOther p.num u old))) }
      | .red (.mem pa) halves op ty scope x =>
        let a := localOf pa
        let held : Bool := s.isDet k && op == .add && ty.isFloat
        some
          { need := Movable s k w p Pend.isGated ∧ clear s k a ty.size ∧ (held = false → (s.core (s.coreNo k)).comb.length < 64 ∧
              ∀ e ∈ (s.core (s.coreNo k)).comb, e.pa ≠ a)
            post := fun t => gone t ∧ MemSame s t ∧
              (held = true → t.core (s.coreNo k) = s.core (s.coreNo k) ∧ ∃ r, t.heldReds = s.heldReds ++ [r] ∧ r.pa = a ∧ r.halves = halves ∧
                r.ty = ty ∧ r.x = x ∧ r.ident = 64 * wn + p.lane % 64 ∧ r.lid = lid ∧ r.due = false) ∧
              (held = false → t.heldReds = s.heldReds ∧ ∃ e, (t.core (s.coreNo k)).comb = (s.core (s.coreNo k)).comb ++ [e] ∧
                e.pa = a ∧ e.op = op ∧ e.ty = ty ∧ e.scope = scope ∧ e.halves = halves ∧ e.x = x ∧ e.contributors = [k] ∧ e.held = none) }
      | .arrive o order => (s.barKey? k o).map fun b =>
          let x := s.barrier b
          { need := Movable s k w p Pend.isGated (firstOf s k w p) ∧ s.remoteRoot b = none ∧ x.e ≠ 0
            post := fun t => gone t ∧ t.barrier b = turnsIfDue { x with count := x.count + 1, top := max x.top order } ∧
              (t.warp? k).map (fun w => (w.arrivedBit o, w.aparBit o)) = some (true, x.parity) }
      | .held e =>
        let out := s.setWarp k { w with pend := w.pend.erase p, undo := w.undo.filter (fun u => decide (p.num < u.num)) }
        let need : Prop := Movable s k w p Pend.isGated (gateTurn w p)
        match e with
        | .tile n a => some
            { need := need
              post := fun t => written (fun f => f) t ∧ ∀ m, (t.warp? k).map (·.tile m) =
                some (if m = n then tileAfter (s.tileShape k (w.tile n)) a (w.tile n) else w.tile m) }
        | .command n _ => (nget? (s.core (s.coreNo k)).cmds n).map fun x =>
            { need := need ∧ s.groupCore (s.groupKey k) = some (s.coreNo k)
              post := fun t => written (fun f => f) t ∧
                nget? (t.core (s.coreNo k)).cmds n = some { x with stage := if 32 ≤ x.num then .admitted else .waiting } ∧
                ∀ m, m ≠ n → nget? (t.core (s.coreNo k)).cmds m = nget? (s.core (s.coreNo k)).cmds m }
        | .deque a ls =>
            let r := inTurn s a (s.coreNo k) lid ls
            some
              { need := need ∧ s.dequeTurn k p = true ∧ (ls.map Prod.fst).Nodup ∧ (a = .push → firstOf s k w p)
                post := fun t => t.cores = r.1.cores ∧ MemSame s t ∧ WarpsSameBut s t k ∧ gone t ∧
                  ∀ l, (t.warp? k).bind (·.fibre? l) = (w.fibre? l).map (fun f => match r.2.find? (fun e => e.1 == l) with
                    | some e => f.fillEntries e.2
                    | none => f) }
        | .name a => some
            { need := need
              post := fun t => t = (match a with
                | .pub i n => out.onTile n (s.namedTile k (w.tile i)) true
                | .get i n life l =>
                  (out.modWarp k (fun w => w.setTile i { fillingTile (w.tile i) with lane := l })).onInterest n (.consumer k i) life
                | .retire n => out.onRetire n
                | .drop i =>
                  if s.router.pit.any (fun e => e.2.any (fun q => q.1 == .consumer k i)) then
                    (out.modRouter (fun r => r.dropFaces (· == .consumer k i))).modWarp k
                      (fun w => w.setTile i { w.tile i with state := .empty, image := [] })
                  else out) }
        | .hint h => some
            { need := need
              post := fun t => written (fun f => f) t ∧
                kget? (t.core (s.coreNo k)).hints lid = (if h = .automatic then none else some h) }
        | .setE o n => (s.barKey? k o).map fun b =>
            { need := need
              post := fun t => gone t ∧ match s.remoteRoot b with
                | none => t.barrier b = turnsIfDue { s.barrier b with e := n }
                | some r => t.barrier b = { s.barrier b with e := n } ∧ t.out = s.out ++ [.barrierSet r lid b.index n] }
        | .dropOut o => (s.barKey? k o).map fun b =>
            let x := { s.barrier b with e := (s.barrier b).e - 1 }
            { need := need
              post := fun t => gone t ∧ (t.warp? k).map (·.dropped.getLsbD (barBit o)) = some true ∧ match s.remoteRoot b with
                | none => t.barrier b = turnsIfDue x
                | some r => t.barrier b = x ∧ t.out = s.out ++ [.barrierDrop r lid b.index] }
      | _ => none
    else none
  | .detAtomicApply lid =>
    if k.lid = lid then
      match p.kind with
      | .atom [u] [(l, _)] none =>
        some { need := s.warp? k = some w ∧ w.ended = false ∧ w.spec = none ∧ k ∈ s.warpsOf (s.groupKey k) ∧ s.moves k = true ∧
                 leastKey (s.detAtoms lid) = some (k, p) ∧ p.stage = .queued ∧ s.isOwnMem u.loc = true ∧ l = u.lane ∧
                 u.straddles = false ∧ (u.size = 4 ∨ u.size = 8) ∧ free s k u.loc u.size ∧
                 (∃ la, s.launch? lid = some la ∧ s.allPassed la p.key = true)
               post := fun t => updated s t u.loc u.size u.upd ∧ gone t }
      | _ => none
    else none
  | _ => none
where
  /-- The item left the warp, and no other warp changed its items. -/
  gone (t : State) : Prop := (t.warp? k).map (·.pend) = some (w.pend.erase p)
  /-- The item's fibre changed so, and no other of the warp; nor did another warp that is not speculative. -/
  fibresAs (fill : Fibre → Fibre) (t : State) : Prop :=
    (∀ k' x, k' ≠ k → s.warp? k' = some x → x.spec = none → t.warp? k' = some x) ∧
      ∀ l, (t.warp? k).bind (·.fibre? l) = (w.fibre? l).map (fun f => if l = p.lane then fill f else f)
  /-- The item's fibre has its results. -/
  filled (fill : Fibre → Fibre) (t : State) : Prop := gone t ∧ fibresAs fill t
  /-- So it is, and no other warp and no byte of memory changed. -/
  written (fill : Fibre → Fibre) (t : State) : Prop := filled fill t ∧ WarpsSameBut s t k ∧ MemSame s t

/-! ### The fence, leases and the instruction copies (R228, R238, R239, R262) -/

/-- Is the item a store? -/
def isStore (p : Pend) : Bool :=
  match p.kind with
  | .store .. => true
  | _ => false

/-- Resolution, which needs the accesses before the FENCE performed and the warp's combining-buffer entries gone: with no store
to release, nothing but the warp's own speculation changes; with one to this package's memory, of a launch that is not
deterministic, the store is performed in this step. A recall of a marked line; the end of an ICINV; and a lease recall. -/
def orderEvents (s : State) : Instr → Option Event
  | .fenceResolve lid wn =>
    let k : WarpKey := ⟨lid, wn⟩
    match s.warp? k with
    | some w =>
      let due : Prop := ∃ f, w.spec = some f ∧ w.performedTo f.num = true ∧ s.warpRests k = false ∧ s.moves k = true
      match w.pend.filter (s.leavesAtResolve k w) with
      | [] => some
          { need := due
            post := fun t => ∃ w', t.warp? k = some w' ∧ w'.spec = none ∧ w'.slots = w.slots ∧ w'.retired = w.retired ∧
              (∀ p ∈ w'.pend, p.spec = false) ∧ { t with warps := s.warps } = s ∧ WarpsSameBut s t k }
      | [p] => (match p.kind with
        | .store (.mem pa) b =>
          let p' := { p with spec := false }
          some
            { need := due ∧ Movable (s.setWarp k w.resolve) k w.resolve p' isStore ∧ s.isOwnMem (.mem pa) = true ∧
                s.isDet k = false ∧ (s.launch? lid).isSome = true ∧ clear s k (localOf pa) b.length ∧
                ∀ q ∈ w.pend, q ≠ p → ¬ (q.num = p.num ∧ q.lane = p.lane ∧ isStore q = true)
              post := fun t => MemSameBut s t (localOf pa) b.length ∧ memBytes t.mem (localOf pa) b.length = b ∧
                ∃ w', t.warp? k = some w' ∧ w'.spec = none ∧ w'.pend = w.resolve.pend.erase p' }
        | _ => none)
      | _ => none
    | none => none
  | .speculativeRollback lid wn line =>
    let k : WarpKey := ⟨lid, wn⟩
    match s.warp? k with
    | some w => some
        { need := ∃ f, w.spec = some f ∧ line ∈ f.marks ∧ w.issues ≠ f.num ∧ (w.undo.any (fun u => u.num == f.num)) = true
          post := fun t => ∃ f w', w.spec = some f ∧ t.warp? k = some w' ∧ w'.spec = some { f with marks := [] } ∧
            w'.issues = f.num ∧ (∀ p ∈ w'.pend, p.num < f.num) ∧
            (w.undo.find? (fun u => u.num == f.num)).map (fun u => { u.before with
              slots := nmap (fun _ x => { x with refetch := x.refetch || x.inside }) u.before.slots }) = some w'.toWarpArch ∧
            MemSame s t ∧ WarpsSameBut s t k }
    | none => none
  | .icinvComplete lid wn =>
    let k : WarpKey := ⟨lid, wn⟩
    match s.warp? k, s.launch? lid with
    | some w, some la => some
        { need := ∃ scope pages, w.waiting = .icinv scope pages ∧ w.released = false ∧ w.unperformed = false ∧
            s.warpRests k = false ∧ (s.coreOf k).isSome = true
          post := fun t => MemSame s t ∧ (t.warp? k).map (·.released) = some true ∧
            ∀ scope pages, w.waiting = .icinv scope pages → ∀ e ∈ t.cores, inScope scope (s.coreNo k) e.1 = true →
              ∀ x ∈ e.2.code, x.root = la.root → x.va / 2 ^ 16 ∉ pages }
    | _, _ => none
  | .leaseRecall line core => some
      { post := fun t => nget? (t.core core).l1 line = none ∧ (∀ c, c ≠ core → t.core c = s.core c) ∧ MemSame s t ∧
          t.warps = s.warps }
  | _ => none

/-! ### Domain barriers between packages (R376) -/

/-- What the root takes from another package, where it does not complete the phase: an arrival (kind 0) counts and brings its
member's order, a drop (1) lowers E, an init (2) sets it. And the root's completion, at another package: the parity turns, the
count and the greatest order start anew, and every member is lifted (R167, R169, R244). -/
def domainEvents (s : State) : Instr → Option Event
  | .domainBarrierArrival lid index kind value =>
    let b : BarKey := ⟨lid, .domain, 0, index % 4⟩
    let x := s.barrier b
    let y := match kind with
      | 0 => { x with count := x.count + 1, top := max x.top value }
      | 1 => { x with e := x.e - 1 }
      | _ => { x with e := value }
    some { need := (∃ la, s.launch? lid = some la ∧ la.domainRoot = s.domid ∧ la.domainPackages ≠ 1) ∧
             (y.count < y.e ∨ (kind ≠ 0 ∧ y.e = 0))
           post := fun t => t.barrier b = y ∧ MemSame s t ∧ t.warps = s.warps }
  | .domainBarrierCompletion lid index order =>
    let b : BarKey := ⟨lid, .domain, 0, index % 4⟩
    let top := max (s.barrier b).top order
    some { need := ∃ la, s.launch? lid = some la ∧ la.domainRoot ≠ s.domid ∧ la.domainPackages ≠ 1
           post := fun t => t.barrier b = { s.barrier b with count := 0, parity := !(s.barrier b).parity, top := 0 } ∧
             ((t.launch? lid).map (·.phase)) = ((s.launch? lid).map (fun la => la.phase + 1)) ∧
             ∀ k w, s.warp? k = some w → k ∈ s.members b → ∃ w', t.warp? k = some w' ∧ top ≤ w'.order ∧
               (w.spec = none → w'.slots = w.slots) }
  | _ => none

/-! ### The launch front end (R180 to R184, R243, R349) -/

/-- A QCTL value with EN and a legal ring (R181). -/
def legalRing (s : State) (q : LaunchQueue) (v : Word) : Prop :=
  1 ≤ v.toNat % 32 ∧ v.toNat % 32 ≤ 16 ∧ q.base % 128 = 0 ∧ q.base / 2 ^ 43 = 0 ∧ s.backs q.base (128 * 2 ^ (v.toNat % 32)) = true

/-- The record at the head of a host queue is taken and accepted (the warps of a domain launch on other packages are the step's
argument: the model's choice, log entry 140), or refused with the code of R179; QCTL; the start of the launch that R183 chooses; the
completion word of the oldest launch that is finished, once nothing that it wrote rests in a core or a slice; and the counts that a
write or a read clears. -/
def frontEvents (s : State) : Instr → Option Event
  | .launchRecordRead queue others =>
    let q := s.queue queue
    let r := LaunchRec.parse (memBytes s.mem (q.base + 128 * (q.cons.toNat % 2 ^ (q.ctl.toNat % 32))) 128)
    some { need := s.level ≠ 0 ∧ s.grid.down = false ∧ q.ctl.getLsbD 5 = true ∧ q.overrun = false ∧ q.head = none ∧ q.prod ≠ q.cons ∧
             (q.prod - q.cons).toNat ≤ 2 ^ (q.ctl.toNat % 32) ∧ (Accepted s r ∨ r.done = 0)
           post := fun t => (t.queue queue).cons = q.cons + 1 ∧ MemSame s t ∧ t.warps = s.warps ∧
             (Accepted s r → (t.queue queue).head = some r.lid ∧ ∃ la, t.launch? r.lid = some la ∧ la.record = r ∧
               la.root = q.rootHi.toNat * 2 ^ 32 + q.rootLo.toNat ∧ la.stage = .accepted queue ∧ la.queue = queue ∧
               la.domainOthers = (if s.front.dsetLid = r.lid ∧ r.flags.getLsbD 5 = true then others else 0)) ∧
             ∀ code, Refused s r code → (t.queue queue).head = none ∧
               (∀ la, t.launch? r.lid = some la → s.launch? r.lid = some la) ∧
               (code ≠ 0x0B → t.front.outcomes.getLast? = some (r.lid, 2, code)) }
  | .qctlWrite queue v =>
    let q := s.queue queue
    some { post := fun t => MemSame s t ∧ (∀ j, j ≠ queue → t.queue j = s.queue j) ∧
             (q.ctl.getLsbD 5 = true → t.queue queue = { q with ctl := (q.ctl &&& 0x1F) ||| (v &&& 0x20) }) ∧
             (q.ctl.getLsbD 5 = false → v.getLsbD 5 = false → t.queue queue = { q with ctl := v &&& 0x3F }) ∧
             (q.ctl.getLsbD 5 = false → v.getLsbD 5 = true → legalRing s q v →
               t.queue queue = { q with ctl := v &&& 0x3F, cons := q.prod }) ∧
             (q.ctl.getLsbD 5 = false → v.getLsbD 5 = true → ¬ legalRing s q v →
               t.queue queue = { q with ctl := v &&& 0x1F, cfgerr := true }) }
  | .launchStart => (s.toStart).map fun (q, la, ds) =>
      { need := s.grid.down = false
        post := fun t => (∃ la', t.launch? la.record.lid = some la' ∧ la'.stage = .running ∧ la'.dies = ds ∧ la'.record = la.record) ∧
          nget? t.front.lastQueue (la.record.cls % 4) = some q ∧ (∀ e ∈ t.tags, e.2.lid ≠ la.record.lid) ∧
          (∀ k, k ≠ la.record.lid → t.launch? k = s.launch? k) ∧ MemSame s t ∧ t.warps = s.warps }
  | .completionWordWrite =>
    (s.front.finished.head?).map fun f =>
      let done := f.done.toNat
      { need := s.grid.down = false ∧ (∀ c ∈ s.cores, ∀ e ∈ c.2.comb, ∀ k ∈ e.contributors, k.lid ≠ f.lid) ∧
          ∀ r ∈ s.heldReds, r.lid = f.lid → r.due = false
        post := fun t => t.front.finished = s.front.finished.tail ∧ t.launches = s.launches ∧ (done = 0 → MemSame s t) ∧
          ∀ pa page, done ≠ 0 → done < 2 ^ 56 → s.translate 0 f.root done .write = .ok pa page → packageOf pa = s.domid →
            (s.region (localOf pa) = .far ∨ ∃ d, s.region (localOf pa) = .near d) →
            MemSameBut s t (localOf pa) 8 ∧
              memBytes t.mem (localOf pa) 8 = bytesOf 8 (f.lid.toNat * 2 ^ 32 + f.code % 2 ^ 8 * 2 ^ 8 + f.state) }
  | .detlidWrite v => some
      { post := fun t => t.front.detLid = v ∧ kget? t.front.detCnt v = none ∧
          (∀ k, k ≠ v → kget? t.front.detCnt k = kget? s.front.detCnt k) ∧ { t with front := s.front } = s }
  | .viollidWrite v => some
      { post := fun t => t.front.violLid = v ∧ kget? t.front.violCnt v = none ∧
          (∀ k, k ≠ v → kget? t.front.violCnt k = kget? s.front.violCnt k) ∧ { t with front := s.front } = s }
  | .detcntRead => some
      { post := fun t => kget? t.front.detCnt s.front.detLid = none ∧
          (∀ k, k ≠ s.front.detLid → kget? t.front.detCnt k = kget? s.front.detCnt k) ∧ { t with front := s.front } = s }
  | .violcntRead => some
      { post := fun t => kget? t.front.violCnt s.front.violLid = none ∧
          (∀ k, k ≠ s.front.violLid → kget? t.front.violCnt k = kget? s.front.violCnt k) ∧ { t with front := s.front } = s }
  | .admviolRead cluster => some
      { post := fun t => t.cluster cluster = { s.cluster cluster with viol := 0 } ∧
          (∀ j, j ≠ cluster → t.cluster j = s.cluster j) ∧ { t with clusters := s.clusters } = s }
  | .cretmissRead cluster => some
      { post := fun t => t.cluster cluster = { s.cluster cluster with crMiss := 0 } ∧
          (∀ j, j ≠ cluster → t.cluster j = s.cluster j) ∧ { t with clusters := s.clusters } = s }
  | _ => none

/-! ### Placement, steps, and the units of a core (R138, R178, R184, R189, R191, R192, R201, R205, R209 to R211, R331 to R337) -/

/-- The warp of logical number `n` of a launch as it is created (R178). -/
def created (la : Launch) (n : Nat) (w : Warp) : Prop :=
  let r := la.record
  let i := n % r.warps
  let all := if r.fibres = 0 then r.warps * la.width else r.fibres
  w.warpid = i ∧ w.alloc = r.regs ∧ w.retired = 0 ∧ w.sval64 0 = r.param ∧ w.sval 2 = BitVec.ofNat 32 (n / r.warps) ∧
    w.sval 3 = BitVec.ofNat 32 i ∧
    w.slots = (List.range (if i + 1 < r.warps then la.width else all - (r.warps - 1) * la.width)).map
      (fun lane => (lane, { pc := r.entry, hdr := r.entry, gen := genSeed r.seed (n * 64 + lane) }))

/-- A horizon that is published anew: it never decreases (R245). -/
def risen (old new : Option (Nat × Nat × Nat)) : Option (Nat × Nat × Nat) :=
  match old, new with
  | some a, some b => some (if keyLess b a then a else b)
  | _, _ => new

/-- The next group of the one launch that is running, of gang 1, where no group is out and a core is found for it; a grant to
the first waiter; the swap-out of a stalled core; and a step boundary that is neither elastic nor checkpointed. -/
def placeEvents (s : State) : Instr → Option Event
  | .gangPlacement =>
    match s.startedLaunches with
    | [la] =>
      match s.siteFor la la.placed la.dies with
      | some [c] =>
        let g := la.placed
        some { need := s.grid.down = false ∧ s.launch? la.record.lid = some la ∧ la.record.gang = 1 ∧ la.placedWhole = false ∧
                 s.grid.sheds (la.record.cls % 4) = false ∧ g < la.gangs ∧ 0 < la.record.warps ∧
                 ∀ j ∈ List.range la.placed, s.gangOut la j = false
               post := fun t => MemSame s t ∧ (t.group? ⟨la.record.lid, g⟩).map (·.place) = some (.resident c) ∧
                 (t.launch? la.record.lid).map (·.placed) = some (g + 1) ∧
                 ∀ i ∈ List.range la.record.warps, ∃ w, t.warp? ⟨la.record.lid, g * la.record.warps + i⟩ = some w ∧
                   created la (g * la.record.warps + i) w }
      | _ => none
    | _ => none
  | .regGrowGrant core =>
    match s.growers core with
    | (k, a) :: _ => (s.warp? k).map fun w =>
        { need := s.widthOf k * (a - w.alloc) ≤ (s.core core).entries - (s.coreHolds core).entries ∧ w.waiting = .grow a
          post := fun t => t.warp? k = some { w with alloc := max w.alloc a, released := true } ∧ WarpsSameBut s t k ∧
            { t with warps := s.warps } = s }
    | [] => none
  | .stallSwapOut core =>
    (s.growers core).getLast?.bind fun e => (s.launch? e.1.lid).map fun la =>
      { need := s.stalled core = true
        post := fun t => MemSame s t ∧ t.warps = s.warps ∧
          ∀ i ∈ la.gangGroups (la.gangOf (s.groupKey e.1).g), ∀ q, s.group? ⟨e.1.lid, i⟩ = some q → ∀ c, q.place = .resident c →
            t.group? ⟨e.1.lid, i⟩ = some
              { q with stopping := true, forStall := q.forStall || i == (s.groupKey e.1).g } }
  | .stepBoundary lid =>
    (s.launch? lid).map fun la =>
      { need := la.record.lid = lid ∧ s.atBoundary la = true ∧ s.checkpointDue la = false ∧ s.elasticDies la = none ∧ s.grid.down = false ∧
          ∀ c ∈ s.cores, ∀ e ∈ c.2.comb, ∀ k ∈ e.contributors, k.lid ≠ lid
        post := fun t => MemSame s t ∧ (t.launch? lid) = some { la with stepNo := la.stepNext } ∧
          ∀ k ∈ la.allWarps, ∀ w, s.warp? k = some w → w.waiting = .step → t.warp? k = some { w with released := true, undo := [] } }
  | .steeringAdoption lid wn bad =>
    (s.warp? ⟨lid, wn⟩).map fun w =>
      { need := w.oldSteering.isSome = true ∧ s.atPoint ⟨lid, wn⟩ w = true ∧
          ∀ e ∈ bad, ∀ f, w.fibre? e.1 = some f → (f.entry e.2).full = false
        post := fun t => t.warp? ⟨lid, wn⟩ = some { (bad.foldl (fun x e => x.lose e.1 e.2) w) with oldSteering := none } ∧
          WarpsSameBut s t ⟨lid, wn⟩ ∧
          { t with warps := s.warps } = s }
  | .horizonPublish =>
    match s.launches.filter (fun l => l.2.det && l.2.stage == .running) with
    | [(_, la)] => some
        { post := fun t => MemSame s t ∧ t.warps = s.warps ∧ ∀ c, (∃ k ∈ la.allWarps, s.coreOf k = some c) →
            kget? (t.core c).horizon la.record.lid = risen (kget? (s.core c).horizon la.record.lid)
              (s.horizonOf la (la.allWarps.filter (fun k => s.coreOf k == some c))) }
    | _ => none
  | _ => none

/-- No retirement runs and none waits (R335). What it is for one to run is the model's reading, log entry 139. -/
def noRetirement (s : State) : Prop := s.retirements = [] ∧ ∀ r, s.retiring = some r → s.retirementOver r = true

/-- A change of bank roles; a retirement of a core's lane, bank or matrix column, one at a time; a self-test; an unsparable unit; a
line of an evacuation; the live lane groups; a column that mismatches; a rollback after a droop; and the injection control. -/
def repairEvents (s : State) : Instr → Option Event
  | .bankroleWrite core high v => some
      { post := fun t => MemSame s t ∧ t.warps = s.warps ∧ (∀ c, c ≠ core → t.core c = s.core c) ∧
          (s.groupsOn core ≠ [] → t.core core = { s.core core with refused := true }) ∧
          (s.groupsOn core = [] → ∀ b ∈ List.range 16,
            let old := (s.core core).role (if high then 16 + b else b)
            let new := v.toNat / 4 ^ b % 4
            (t.core core).role (if high then 16 + b else b) = (if old = 3 ∨ new = 3 then old else new)) }
  | .unitRetirement core kind unit => some
      { need := kind < 4 ∧ unit < (if kind = 3 then 16 else 32)
        post := fun t => (noRetirement s → (t.core core).isRetired kind unit = true) ∧
          ∀ r, s.retiring = some r → s.retirementOver r = false → (s.core core).isRetired kind unit = false →
            Retirement.unit core kind unit ∉ s.retirements →
            t = { s with retirements := s.retirements ++ [.unit core kind unit] } }
  | .selfTest core groups => some
      { need := (s.cluster (clusterOf core)).retained = false ∧ s.grid.down = false
        post := fun t =>
          let leaves (kind u : Nat) : Prop := (t.core core).isRetired kind u = true ∨ Retirement.unit core kind u ∈ t.retirements
          (∀ u ∈ s.failedLanes core groups 0, leaves 0 u) ∧ (∀ u ∈ s.failedBanks core groups, leaves 1 u) ∧
            ∀ u ∈ s.failedSram core groups, leaves 2 u }
  | .unitFailed t0 unit sectors => some
      { need := s.absorbs t0 unit = false ∧ s.unitGone t0 unit = false ∧ unit < unitCount t0
        post := fun t => unit ∈ t.unitsFailed t0 ∧ MemSame s t ∧ t.warps = s.warps ∧
          ∀ a ∈ sectors, s.holdsSector t0 unit a = true → (nget? t.poison a).isSome = true }
  | .evacuationLineCopy t0 false =>
    (s.evacuating t0).map fun b =>
      { need := s.grid.stage = 0 ∧ s.grid.down = false ∧ s.retirements = [] ∧ (nget? (s.table t0) b).isSome = true ∧ ∃ l, nextLine t0 b (s.bucket t0 b).cursor = some l
        post := fun t => some (t.bucket t0 b).cursor = nextLine t0 b (s.bucket t0 b).cursor ∧
          (t.bucket t0 b).unit = (s.bucket t0 b).unit ∧ (t.bucket t0 b).next = (s.bucket t0 b).next ∧ MemSame s t ∧ t.warps = s.warps }
  | .laneGroupRetention core used => some
      { post := fun t => (t.core core).liveGroups = s.chooseGroups core used ∧ MemSame s t ∧
          (s.chooseGroups core used ≠ (s.core core).liveGroups →
            ∀ g ∈ s.groupsOn core, ∀ k ∈ s.warpsOf g, ∀ w, s.warp? k = some w →
              t.warp? k = some { w with oldSteering := some (w.oldSteering.getD (s.core core).steering) }) }
  | .columnResidueMismatch core column => some
      { need := s.admittedMmas core ≠ [] ∧ noRetirement s ∧ s.grid.drained = false ∧ (s.cluster (clusterOf core)).retained = false ∧ column < 16 ∧
          (s.core core).retiredCols ||| BitVec.ofNat 16 (2 ^ column) ≠ BitVec.allOnes 16
        post := fun t => (t.core core).retiredCols.getLsbD column = true ∧ (t.core core).cmds = (s.core core).cmds ∧ MemSame s t ∧
          t.warps = s.warps }
  | .droopReport cluster [(lid, wn, n)] =>
    let k : WarpKey := ⟨lid, wn⟩
    (s.warp? k).map fun w =>
      { need := (s.coreOf k).map clusterOf = some cluster ∧ s.isDet k = false ∧ (w.undo.any (fun u => u.num == n)) = true
        post := fun t => MemSame s t ∧ WarpsSameBut s t k ∧ ∃ w', t.warp? k = some w' ∧ w'.issues = n ∧
          (∃ u, w.undo.find? (fun u => u.num == n) = some u ∧ w'.toWarpArch =
              { u.before with slots := nmap (fun _ x => { x with refetch := x.refetch || x.inside }) u.before.slots } ∧
            w'.pend = (w.pend.filter (fun p => decide (p.num < n))).map (Pend.requit w.quits u.before.quits)) ∧
          (∀ p ∈ w.pend, ∀ m found, p.kind = .held (.command m found) → n ≤ p.num → nget? (t.core (s.coreNo k)).cmds m = none) ∧
          w'.spec = (match w.spec with
            | some f => if n < f.num then none else some f
            | none => none) }
  | .fictlWrite v =>
    let event := v.toNat / 2 ^ 4 % 2 ^ 4
    let unit := v.toNat / 2 ^ 8 % 2 ^ 8
    let legal := injectRange event unit
    some { post := fun t => { t with inject := s.inject } = s ∧ t.inject =
             { s.inject with
               die := v.toNat / 2 ^ 16 % 2 ^ 2, unit := unit, event := event
               arm := v.getLsbD 0 && legal
               fired := s.inject.fired && !v.getLsbD 1
               err := (s.inject.err && !v.getLsbD 2) || (v.getLsbD 0 && !legal) } }
  | _ => none

/-! ### Translations (R216, R219 to R221) -/

/-- The bytes of numbers at their offsets and widths, little-endian. -/
def holds (s : State) (a : Nat) (l : List (Nat × Nat × Nat)) : Prop :=
  ∀ e ∈ l, ofBytes (memBytes s.mem (a + e.1) e.2.1) = e.2.2 % 2 ^ (8 * e.2.1)

/-- The block's registers other than BUSY, ROOT's value and ERR after a write to TLBI_CTL while BUSY is 0. -/
def tlbiFields (s : State) (v : Word) : TlbiBlock :=
  { s.tlbi with die := v.toNat / 2 ^ 10 % 4, scope := v.toNat / 2 ^ 7 % 8, allRoots := v.getLsbD 4, root := v.toNat % 16
                err := s.tlbi.err && !v.getLsbD 30 }

/-- A walk that completes is held by the die's TLB, and one that faults leaves it; TLBI_CTL; and the completion of an
invalidation, which waits for every outstanding use of the range. -/
def translationEvents (s : State) : Instr → Option Event
  | .pageWalk die root va =>
    match s.pageEntry root va with
    | some p =>
      let e : TlbEntry := ⟨root, p.vpage, p.ppage, p.r, p.w, p.x⟩
      some { need := ∃ la ∈ s.launches, la.2.root = root
             post := fun t => (t.die die).tlb.filter (fun x => x.root == root && x.vpage == p.vpage) = [e] ∧
               (∀ x, (x.root ≠ root ∨ x.vpage ≠ p.vpage) → (x ∈ (t.die die).tlb ↔ x ∈ (s.die die).tlb)) ∧
               (∀ d, d ≠ die → t.die d = s.die d) ∧ { t with dies := s.dies } = s }
    | none => some { post := fun t => t = s }
  | .tlbiGo v =>
    let scope := v.toNat / 2 ^ 7 % 8
    some { post := fun t =>
      (s.tlbi.busy = true → t = s) ∧
      (s.tlbi.busy = false → { t with tlbi := s.tlbi } = s ∧
        (v.getLsbD 12 = false → t.tlbi = tlbiFields s v) ∧
        (v.getLsbD 12 = true → scope = 4 ∨ scope = 5 →
          t.tlbi = { tlbiFields s v with busy := true, rootValue := (s.queue (v.toNat % 16)).rootOf }) ∧
        (v.getLsbD 12 = true → scope ≠ 4 → scope ≠ 5 → t.tlbi = { tlbiFields s v with err := true })) }
  | .tlbiComplete =>
    let b := s.tlbi
    some { need := b.busy = true ∧ s.tlbiWaits = false
           post := fun t => t.tlbi = { b with busy := false, gen := b.gen + 1 } ∧
             (∀ d, b.coversDie d = true → ∀ x ∈ (t.die d).tlb, ¬ (b.coversRoot x.root = true ∧ b.coversPage x.vpage = true)) ∧
             (∀ c, b.coversDie (dieOf c) = true → ∀ x ∈ (t.core c).code,
               ¬ (b.coversRoot x.root = true ∧ b.coversPage (x.va / 2 ^ 16) = true)) ∧
             (∀ k w, s.warp? k = some w → ∃ w', t.warp? k = some w' ∧ w'.pend = w.pend ∧ w'.sregs = w.sregs ∧ w'.retired = w.retired ∧
               (s.tlbiCovers k = true → ∀ l f, w'.fibre? l = some f → ∀ p, f.lastPage = some p → b.coversPage p.vpage = false)) ∧
             MemSame s t }
  | _ => none

/-! ### Engine commands as they run (R283, R299 to R310) -/

/-- Some bytes that a command writes, and where. -/
abbrev Written := Spot × List Byte

/-- The root of a command's launch, and a translation for its core. -/
def reaches (s : State) (core : Nat) (x : Command) (va : Nat) (kind : Kind) : Trans :=
  s.translate core (((s.launch? x.key.lid).map (·.root)).getD 0) va kind

/-- The scratch bytes that a command's group has (R145). -/
def scratchOf (s : State) (x : Command) (o n : Nat) : Option (List Byte) :=
  (s.group? (s.groupKey x.key)).bind (fun q =>
    if o + n ≤ ((s.launch? x.key.lid).map (·.record.scratch)).getD 0 then some (q.scratchBytes o n) else none)

/-- Has an access of the command to another package's address failed: no route, a refusal or a timeout (R369, R370)? -/
def peerFailed (s : State) (x : Command) (pa : Nat) : Bool := !s.router.reaches (packageOf pa) || x.refused == some pa
/-- The bytes that another package answered to the command (R370). -/
def answered (s : State) (x : Command) (pa z : Nat) : Option (List Byte) :=
  if peerFailed s x pa then none else (x.answers.find? (fun e => e.1 == pa && e.2.length == z)).map (·.2)

/-- The bytes of an element at an endpoint: of a tile's image, of the group's scratch, of the package's memory, or as another
package answered. -/
def elementAt (s : State) (core : Nat) (x : Command) (w : Warp) (e : Endpoint) (t pos z : Nat) : Option (List Byte) :=
  match e with
  | .tile => some (imgBytes (w.tile t).image pos z)
  | .scratch => scratchOf s x pos z
  | .memory => match reaches s core x pos .read with
    | .ok pa _ =>
      if s.isRemote (.mem pa) then answered s x pa z
      else if s.isOwnMem (.mem pa) = true ∧ s.poisoned (localOf pa) z = false then some (memBytes s.mem (localOf pa) z) else none
    | _ => none
/-- Where an element is written. -/
def spotAt (s : State) (core : Nat) (x : Command) (e : Endpoint) (pos z : Nat) : Option Spot :=
  match e with
  | .tile => some (.tile pos)
  | .scratch => (scratchOf s x pos z).map (fun _ => .scr pos)
  | .memory => match reaches s core x pos .write with
    | .ok pa _ => if s.isOwnMem (.mem pa) = true then some (.mem pos pa) else none
    | _ => none

/-- Index iL of vector n: l0 runs fastest (R296). -/
def indexOf (p : Params) (n l : Nat) : Nat := n / (p.bounds.take l).foldl (· * ·) 1 % p.bound l
/-- The sum of a base and its steps at vector n (R296). -/
def placeOf (p : Params) (base : Int) (steps : List Int) (n : Nat) : Int :=
  base + (indexOf p n 0 : Int) * steps.getD 0 0 + (indexOf p n 1 : Int) * steps.getD 1 0 + (indexOf p n 2 : Int) * steps.getD 2 0 +
    (indexOf p n 3 : Int) * steps.getD 3 0 + (indexOf p n 4 : Int) * steps.getD 4 0
/-- The position that vector n of a gather or scatter takes from its index (R305): none at or above LIMIT. -/
def indexed (s : State) (x : Command) (limit : Int) (base z n : Nat) : Option Nat :=
  (scratchOf s x (x.params.misc + 4 * n) 4).bind (fun b => if (ofBytes b : Int) < limit then some (base + ofBytes b * z) else none)

/-- An FP32 value of the vector area of EPI (R304). -/
def vectorAt (s : State) (x : Command) (which i : Nat) : FVal :=
  fdec f32 (ofBytes (((s.group? (s.groupKey x.key)).map (·.scratchBytes (x.params.addr1 + 256 * which + 4 * i) 4)).getD (List.replicate 4 0)))
/-- Element (i, j) of EPI before its output format (R304): scales and biases exactly, one rounding to FP32, the activation. -/
def epilogue (s : State) (x : Command) (slot : RingSlot) (act : ActFn) (rsc csc rbi cbi : Bool) (i j : Nat) : FVal :=
  let a := fdec f32 (slot.elem i j).toNat
  let a := if rsc then a.mul (vectorAt s x 0 i) else a
  let a := if csc then a.mul (vectorAt s x 1 j) else a
  let a := fsum false ([a] ++ (if rbi then [vectorAt s x 2 i] else []) ++ (if cbi then [vectorAt s x 3 j] else []))
  fdec f32 (actOf act (BitVec.ofNat 32 (froundRNE f32 a))).toNat

/-- What vector n of a command writes by itself; a store to another package is that package's (R370). -/
def movedBy (s : State) (core : Nat) (x : Command) (w : Warp) (n : Nat) : Option Written :=
  let p := x.params
  match x.instr with
  | .copy _ _ t src dst mode esz _ =>
    let z := 2 ^ esz.val
    let frm := if mode = .gather then indexed s x (p.step0 4) p.addr0 z n else some (placeOf p p.addr0 p.s0 n).toNat
    let dest := if mode = .scatter then indexed s x (p.step1 4) p.addr1 z n else some (placeOf p p.addr1 p.s1 n).toNat
    frm.bind fun a => dest.bind fun b => (elementAt s core x w src t.val a z).bind fun v => (spotAt s core x dst b z).map (fun q => (q, v))
  | .epi _ _ _ dst act fslot rsc csc rbi cbi _ =>
    if dst = .tile then none else
    let fs := ((s.launch? x.key.lid).map (·.slot fslot.val)).getD 0
    let z := outSize (slotBase fs)
    let q := (s.group? (s.groupKey x.key)).map (·.slot x.slot)
    let v := epilogue s x (q.getD {}) act rsc csc rbi cbi (indexOf p n 1) (indexOf p n 0)
    (spotAt s core x dst (placeOf p p.addr0 p.s0 n).toNat z).map (fun e =>
      (e, bytesOf z (plainCode (slotBase fs) (slotMode fs) (slotSat fs) (genSteps n x.gen) v)))
  | _ => none

/-- An iteration that writes nothing by itself: of an MMA, whose slot holds its sums, and of an EPI to a tile, whose image is made
at completion. -/
def silent (x : Command) : Bool :=
  match x.instr with
  | .mma .. => true
  | .epi _ _ _ dst .. => dst == .tile
  | _ => false

/-- Two places do not meet. -/
def apart (a b : Written) : Prop :=
  match a.1, b.1 with
  | .mem _ p, .mem _ q => localOf p + a.2.length ≤ localOf q ∨ localOf q + b.2.length ≤ localOf p
  | .scr p, .scr q => p + a.2.length ≤ q ∨ q + b.2.length ≤ p
  | .tile p, .tile q => p + a.2.length ≤ q ∨ q + b.2.length ≤ p
  | _, _ => True
/-- The place holds the bytes; padding of a tile's image keeps its zeros (R277). -/
def inPlace (s t : State) (x : Command) (fill : Nat) (h : Shape) (a : Written) : Prop :=
  match a.1 with
  | .mem _ pa => memBytes t.mem (localOf pa) a.2.length = a.2
  | .scr o => (t.group? (s.groupKey x.key)).map (fun q => q.scratchBytes o a.2.length) = some a.2
  | .tile o => ∀ i, i < a.2.length → h.isPadding (o + i) = false →
      (t.warp? x.key).map (fun w => imgByte (w.tile fill).image (o + i)) = some (a.2.getD i 0)

/-- The scale plane that a strided COPY of a tile moves as one block (R306): the place it goes to, with its bytes. -/
def scaleBlock (s : State) (x : Command) (w : Warp) (q : Group) : Option Written :=
  match x.instr with
  | .copy _ _ t src dst .strided _ _ =>
    let h := s.tileShape x.key (w.tile t.val)
    if slotSloc h.slot ≠ 1 then none
    else if src = .tile then some (.scr x.params.misc, imgBytes (w.tile t.val).image h.scaleAt h.scaleSize)
    else if dst = .tile then some (.tile h.scaleAt, q.scratchBytes x.params.misc h.scaleSize) else none
  | _ => none

/-- What vector n still writes: nothing where another package has already performed its store (R370). -/
def dueBy (s : State) (core : Nat) (x : Command) (w : Warp) (n : Nat) : Option Written :=
  if n ∈ x.written then none else movedBy s core x w n
/-- The writes of vectors lo to hi − 1 are in place, each where no later one, and no block moved after them, overwrites it; memory outside them is unchanged. -/
def wroteAll (s t : State) (core : Nat) (x : Command) (w : Warp) (fill : Nat) (h : Shape) (lo hi : Nat)
    (block : Option Written := none) : Prop :=
  (∀ n, lo ≤ n → n < hi → ∀ a, dueBy s core x w n = some a →
    (∀ m, lo ≤ m → m < hi → m ≠ n → ∀ b, dueBy s core x w m = some b → apart a b ∨ (a.1 = b.1 ∧ m < n)) →
    (∀ b, block = some b → apart a b) →
    inPlace s t x fill h a) ∧
  ∀ b, (∀ n, lo ≤ n → n < hi → ∀ va pa v, dueBy s core x w n = some (.mem va pa, v) → b < localOf pa ∨ localOf pa + v.length ≤ b) →
    memByte t.mem b = memByte s.mem b

/-- MmaStep (R303): the sum of an accumulator and the products of a k-group, each truncated to a unit 34 binary places below the
greatest of them, rounded once. -/
def mmaStepOf (acc : Word) (ts : List FVal) : Word :=
  let all := fVal acc :: ts
  let terms : List (Bool × Nat × Int) := all.filterMap (fun x => match x with
    | .fin neg m e => if m = 0 then none else some (neg, m, e)
    | _ => none)
  if .nan ∈ all ∨ (.inf false ∈ all ∧ .inf true ∈ all) then 0x7FC00000
  else if .inf false ∈ all then 0x7F800000
  else if .inf true ∈ all then 0xFF800000
  else match terms with
    | [] => if ∀ x ∈ all, x.isNeg = true then 0x80000000 else 0
    | z :: zs =>
      let place (x : Bool × Nat × Int) : Int := (Nat.log2 x.2.1 : Int) + x.2.2
      let q := zs.foldl (fun m x => max m (place x)) (place z) - 34
      let units (x : Bool × Nat × Int) : Nat :=
        if q ≤ x.2.2 then x.2.1 * 2 ^ (x.2.2 - q).toNat else x.2.1 / 2 ^ (q - x.2.2).toNat
      let sum : Int := (terms.map (fun x => if x.1 then -(units x : Int) else units x)).sum
      if sum = 0 then 0 else rounded (.fin (decide (sum < 0)) sum.natAbs q)
/-- The k-group of a base type (R302). -/
def groupSize (base : Nat) : Nat := if base = 1 ∨ base = 2 then 16 else if base = 6 then 64 else 32
/-- What one vector of an MMA adds to element (r, c): its k-groups in ascending order (R303). -/
def vectorSum (neg : Bool) (ha hb : Shape) (ia ib : NMap Byte) (r c : Nat) (acc : Word) : Word :=
  let n := groupSize (slotBase ha.slot)
  (List.range ((ha.cols + n - 1) / n)).foldl (fun acc g =>
    mmaStepOf acc (((List.range ha.cols).filter (fun k => k / n = g)).map (fun k =>
      let p := (elemVal ha ia r k).mul (elemVal hb ib c k)
      if neg then p.neg else p))) acc

/-! Blocks (R288) -/

/-- A value times a power of two, and its magnitude. -/
def times (x : FVal) (k : Int) : FVal :=
  match x with
  | .fin neg m e => .fin neg m (e + k)
  | v => v
def magnitude (x : FVal) : FVal := if x.isNeg then x.neg else x
/-- Max: the largest finite magnitude of an element format under a scale type. -/
def greatest (base ty : Nat) : FVal :=
  match base with
  | 6 => .fin false ([7, 6, 8, 12].getD ty 0) 0
  | 7 => if ty = 1 then .fin false 15 (-1) else .fin false 28 0
  | 3 => .fin false 448 0
  | 4 => .fin false 57344 0
  | _ => .fin false 127 0
/-- E of a block: an infinity counts as Max times 2 ^ 30. -/
def blockScale (base ty : Nat) (xs : List FVal) : Nat :=
  let vs := xs.map (fun x => if x = .inf false ∨ x = .inf true then times (greatest base ty) 30 else magnitude x)
  if vs.all (fun v => !(FVal.fin false 0 0).lt v) then 32
  else ((List.range 63).find? (fun (e : Nat) => vs.all (fun v => !(times (greatest base ty) ((e : Int) - 32)).lt v))).getD 62
/-- The magnitudes of R285 in eighths. -/
def eighths (ty : Nat) : List Nat :=
  match ty with
  | 0 => [0, 8, 16, 24, 32, 40, 48, 56, 64]
  | 1 => [0, 4, 8, 12, 16, 24, 32, 48]
  | 2 => [0, 1, 2, 4, 8, 16, 32, 64]
  | _ => [0, 8, 16, 24, 32, 48, 64, 96]
/-- GridRound of a 4-bit type: the end of the grid on its side, or none, above it; else one of the two neighbours, by RoundUp of R39. -/
def onGrid (ty : Nat) (mode : RMode) (sat : Bool) (g : Word) (y : FVal) : Option Nat :=
  let code (neg : Bool) (i : Nat) : Nat := if ty = 0 then (if neg then (16 - i) % 16 else i) else if neg then 8 + i else i
  let last (neg : Bool) : Nat := if ty = 0 ∧ neg then 8 else 7
  match y with
  | .nan => none
  | .inf neg => if sat then some (code neg (last neg)) else none
  | .fin neg m e =>
    let at_ (i : Nat) : Nat := (eighths ty).getD i 0
    if (FVal.fin false (at_ (last neg)) (-3)).lt (.fin false m e) then (if sat then some (code neg (last neg)) else none)
    else
      let k := (-3 - e).toNat
      let whole := m * 2 ^ (e + 3).toNat / 2 ^ k
      let rest := m * 2 ^ (e + 3).toNat % 2 ^ k
      let i := ((List.range (last neg + 1)).filter (fun i => at_ i ≤ whole)).length - 1
      let gap := if i = last neg then 0 else Nat.log2 (at_ (i + 1) - at_ i)
      some (code neg (if roundUp mode neg i ((whole - at_ i) * 2 ^ k + rest) (k + gap) g then i + 1 else i))
/-- The code of an element of a block-scaled format: none where an FP6 element has no code. -/
def codeOf (base ty : Nat) (mode : RMode) (sat : Bool) (g : Word) (y : FVal) : Option Nat :=
  match base with
  | 6 => onGrid ty mode sat g y
  | 7 => let fm := if ty = 1 then e2m3 else e3m2
    if fround fm mode sat g y = fm.nan then none else some (fround fm mode sat g y)
  | 3 => some (fround e4m3 mode sat g y)
  | 4 => some (fround e5m2 mode sat g y)
  | _ => some ((floatToInt 8 true mode g y % 256).toNat)
/-- The scale byte and the codes that a block is formed of. -/
def formBlock (base ty : Nat) (mode : RMode) (sat : Bool) (g : Nat → Word) (xs : List FVal) : Nat × List Nat :=
  let nan := (ty * 64 + 63, xs.map (fun _ => 0))
  if .nan ∈ xs ∨ (sat = false ∧ (.inf false ∈ xs ∨ .inf true ∈ xs)) then nan
  else
    let e := blockScale base ty xs
    let codes := (List.range xs.length).map (fun n => codeOf base ty mode sat (g n) (times (xs.getD n .nan) (32 - (e : Int))))
    if codes.any Option.isNone then nan else (ty * 64 + e, codes.map (·.getD 0))
/-- The packed image (R277) of exact values: in blocks of 32, or each element by itself, with one generator state each. -/
def packedImage (h : Shape) (mode : RMode) (sat : Bool) (g : Nat → Word) (v : Nat → Nat → FVal) : NMap Byte :=
  if h.scaled then
    let blocks := (List.range h.rows).map (fun i => (List.range (h.cols / 32)).map (fun b =>
      formBlock (slotBase h.slot) (slotStype h.slot) mode sat (fun n => g (i * h.cols + 32 * b + n))
        ((List.range 32).map (fun n => v i (32 * b + n)))))
    packImage h (blocks.flatMap (fun r => r.flatMap (fun b => b.2))) (fun i b => (((blocks.getD i []).getD b (0, [])).1))
  else
    packImage h ((List.range h.rows).flatMap (fun i => (List.range h.cols).map (fun j =>
      plainCode (slotBase h.slot) mode sat (g (i * h.cols + j)) (v i j)))) (fun _ _ => 0)

/-- Element (r, c) of a ring slot after vectors lo to hi − 1 of an MMA, by R285 and R303. -/
def mmaCell (s : State) (x : Command) (w : Warp) (ta tb : Nat) (neg : Bool) (lo hi r c : Nat) (old : Word) : Word :=
  ((List.range (hi - lo)).map (· + lo)).foldl (fun acc n =>
    let a := (placeOf x.params ta x.params.s0 n % 16).toNat
    let b := (placeOf x.params tb x.params.s1 n % 16).toNat
    vectorSum neg (s.tileShape x.key (w.tile a)) (s.tileShape x.key (w.tile b)) (w.tile a).image (w.tile b).image r c acc) old
/-- The slot after them: the elements of M × N, the others as they were. -/
def accumulated (s t : State) (x : Command) (w : Warp) (ta tb : Nat) (neg : Bool) (lo hi : Nat) : Prop :=
  ∀ q, s.group? (s.groupKey x.key) = some q → ∀ r c, r < 64 → c < 64 →
    (t.group? (s.groupKey x.key)).map (fun q' => (q'.slot x.slot).elem r c) = some
      (if r < (s.tileShape x.key (w.tile ta)).rows ∧ c < (s.tileShape x.key (w.tile tb)).rows
       then mmaCell s x w ta tb neg lo hi r c ((q.slot x.slot).elem r c) else (q.slot x.slot).elem r c)

/-- A command of a warp that goes on, whose group is resident on its core, whose launch is not deterministic, with no
reduction held in the core or for the end of a phase, and no mismatch of a matrix column on its way (R337). -/
structure Running (s : State) (core cmd : Nat) (x : Command) (w : Warp) (q : Group) : Prop where
  runs : s.running core cmd = some x
  number : x.num = cmd
  warp : s.warp? x.key = some w
  alive : w.ended = false
  settled : w.spec = none
  bounds : ∀ b ∈ x.params.bounds, 1 ≤ b ∧ b < 2 ^ 16
  fibre : (w.fibre? x.lane).isSome = true
  member : x.key ∈ s.warpsOf (s.groupKey x.key)
  group : s.group? (s.groupKey x.key) = some q
  place : q.place = .resident core
  image : (s.cluster (clusterOf core)).saveOf (s.groupKey x.key) = none
  plain : s.isDet x.key = false
  still : (s.core core).comb = []
  applied : ∀ r ∈ s.heldReds, r.due = false
  columns : (s.core core).badColumn = none

/-- What follows the writes of a command that completes or ends: it leaves no lock; its tiles lose its reads and its fill; its
completion barrier counts an arrival in place of an engine (R170). -/
structure Left (s t : State) (core : Nat) (x : Command) (w : Warp) (fill : Tile → Tile) : Prop where
  locks : ∀ l ∈ (t.core core).locks, l.cmd ≠ x.num
  tiles : ∀ a, (t.warp? x.key).map (·.tile a) =
    some ((x.reads.filter (· == a)).foldl (fun y _ => y.readDone) (if x.fill = some a then fill (w.tile a) else w.tile a))
  arrival : x.params.bv = true →
    let b : BarKey := ⟨x.key.lid, .core, (s.groupKey x.key).g, x.params.bidx⟩
    let y := s.barrier b
    (y.count + 1 < y.e → t.barrier b = { y with engines := y.engines - 1, count := y.count + 1, top := max y.top 0 }) ∧
    (y.e ≤ y.count + 1 → (t.barrier b).parity = !y.parity ∧ (t.barrier b).count = 0 ∧ (t.barrier b).engines = y.engines - 1)

/-- Energy beyond what a command declared is its cluster's debt and a violation of its cluster and launch (R350). -/
def charged (s t : State) (core : Nat) (x : Command) (energy : Nat) : Prop :=
  let c := clusterOf core
  (energy ≤ x.params.energy → t.cluster c = s.cluster c) ∧
  (x.params.energy < energy → (t.cluster c).debt = (s.cluster c).debt + (energy - x.params.energy) ∧
    (t.cluster c).viol = min ((s.cluster c).viol + 1) (2 ^ 32 - 1))

/-- Completions. -/
def engineEvents (s : State) (x : Command) (w : Warp) (q : Group) : Instr → Option Event
  | .mmaCompletion core cmd energy =>
    match x.instr with
    | .mma _ _ ta tb _ _ cls neg => some
        { need := Running s core cmd x w q ∧ (s.core core).retiredCols ≠ BitVec.allOnes 16 ∧ x.fill = none
          post := fun t => finished s t core x energy (fun y => y) ∧ accumulated s t x w ta.val tb.val neg x.done (max x.done x.params.total) ∧
            (t.group? (s.groupKey x.key)).map (fun q' => (q'.slot x.slot).state) = some
              (if cls = true ∧ (q.slot x.slot).state = .opened then .full else (q.slot x.slot).state) ∧ MemSame s t }
    | _ => none
  | .epiCompletion core cmd energy =>
    match x.instr with
    | .epi _ _ t0 dst act _ rsc csc rbi cbi _ =>
      let h := s.tileShape x.key (w.tile t0.val)
      let consumed (t : State) : Prop := ∃ q', t.group? (s.groupKey x.key) = some q' ∧ q'.slot x.slot = {} ∧
        (s.accs x.key ≠ 0 → q'.tail = (q.tail + 1) % s.accs x.key) ∧ ∀ i, i ≠ x.slot → q'.slot i = q.slot i
      if dst = .tile then some
        { need := Running s core cmd x w q ∧ x.fill = some t0.val
          post := fun t => consumed t ∧ MemSame s t ∧ finished s t core x energy (fun y => y.fillDone
            (packedImage h (slotMode h.slot) (slotSat h.slot) (fun n => genSteps n x.gen)
              (epilogue s x (q.slot x.slot) act rsc csc rbi cbi))) }
      else some
        { need := Running s core cmd x w q ∧ x.fill = none ∧ whole core
          post := fun t => consumed t ∧ finished s t core x energy (fun y => y) ∧ wroteAll s t core x w 0 h x.done x.params.total }
    | _ => none
  | .copyCompletion core cmd energy =>
    match x.instr with
    | .copy _ _ t0 src dst _ _ _ =>
      let h := s.tileShape x.key (w.tile t0.val)
      some
        { need := Running s core cmd x w q ∧ x.fill = (if dst = .tile then some t0.val else none) ∧ (dst = .tile → t0.val ∉ x.reads) ∧
            whole core ∧ (src = .tile → dst ≠ .tile)
          post := fun t => wroteAll s t core x w t0.val h x.done x.params.total (scaleBlock s x w q) ∧
            (∀ b, scaleBlock s x w q = some b → match b.1 with
              | .tile o => (t.warp? x.key).map (fun w' => imgBytes (w'.tile t0.val).image o b.2.length) = some b.2
              | _ => inPlace s t x t0.val h b) ∧
            (dst = .tile → (t.warp? x.key).map (fun w' => (w'.tile t0.val).state) = some .ready) ∧
            (src = .tile → (t.warp? x.key).map (·.tile t0.val) =
              some ((x.reads.filter (· == t0.val)).foldl (fun y _ => y.readDone) (w.tile t0.val))) ∧
            gone t core ∧ charged s t core x energy }
    | _ => none
  | _ => none
where
  /-- Every vector from where the command stands has its element, or another package performed its store. -/
  whole (core : Nat) : Prop := ∀ n, x.done ≤ n → n < x.params.total → n ∈ x.written ∨ (movedBy s core x w n).isSome = true
  /-- The core holds the command no more. -/
  gone (t : State) (core : Nat) : Prop := nget? (t.core core).cmds x.num = none ∧ ∀ l ∈ (t.core core).locks, l.cmd ≠ x.num
  /-- All that follows the writes. -/
  finished (s t : State) (core : Nat) (x : Command) (energy : Nat) (fill : Tile → Tile) : Prop :=
    Left s t core x w fill ∧ nget? (t.core core).cmds x.num = none ∧ charged s t core x energy

/-- The fault that an iteration of a strided COPY from memory meets at its source: its reason, and its address. -/
def sourceFault (s : State) (core : Nat) (x : Command) (n : Nat) : Option (Nat × Nat) :=
  match x.instr with
  | .copy _ _ _ .memory _ .strided _ _ =>
    let va := (placeOf x.params x.params.addr0 x.params.s0 n).toNat
    match reaches s core x va .read with
    | .fault r => some (r, va)
    | .ok pa _ => if packageOf pa ≠ s.domid ∧ peerFailed s x pa = true then some (4, va) else none
    | _ => none
  | _ => none

/-- The first vector from where the command stands that is not done and that it cannot move by itself. -/
def firstStuck (s : State) (core : Nat) (x : Command) (w : Warp) : Option Nat :=
  ((List.range x.params.total).drop x.done).find? (fun n => !x.written.contains n && (movedBy s core x w n).isNone)
/-- What a strided COPY needs of another package at that vector (R370): the bytes at its source, which were not answered yet, or the
store of its element. The virtual and the physical address, the kind of the access and its bytes. -/
def wanted (s : State) (core : Nat) (x : Command) (w : Warp) (n : Nat) : Option (Nat × Nat × Nat × List Byte) :=
  match x.instr with
  | .copy _ _ t src dst .strided esz _ =>
    let z := 2 ^ esz.val
    let far (va : Nat) (kind : Kind) : Option Nat := match reaches s core x va kind with
      | .ok pa _ => if packageOf pa ≠ s.domid ∧ peerFailed s x pa = false then some pa else none
      | _ => none
    let frm := (placeOf x.params x.params.addr0 x.params.s0 n).toNat
    let dest := (placeOf x.params x.params.addr1 x.params.s1 n).toNat
    match elementAt s core x w src t.val frm z with
    | none => if src = .memory then (far frm .read).map (fun pa => (frm, pa, 0, List.replicate z 0)) else none
    | some v => if dst = .memory then (far dest .write).map (fun pa => (dest, pa, 1, v)) else none
  | _ => none

/-- COPY_COMPLETION of a command that needs another package: it sends one request, in the flow of its core to that package, and
stands where it was, with nothing of it in memory yet (R235, R370, R371). That its requests go one at a time is the model's choice (log
entry 55). -/
def enginePeers (s : State) (x : Command) (w : Warp) (q : Group) : Instr → Option Event
  | .copyCompletion core cmd _ => (firstStuck s core x w).bind fun n => (wanted s core x w n).map fun (va, pa, kind, bytes) =>
    let p := packageOf pa
    let f := s.flow core p
    { need := Running s core cmd x w q ∧ s.awaits core x = false ∧ f.open_.length < 4096
      post := fun t =>
        t.out = s.out ++ [.request p core f.seq f.epoch ⟨kind, localOf pa, .exch, .b32, bytes, false⟩] ∧
        t.flow core p = { f with
          seq := (f.seq + 1) % 2 ^ 16
          open_ := f.open_ ++ [{ seq := f.seq, key := x.key, num := x.seq, lane := x.lane, part := n, kind := kind, pa := pa
                                 epoch := f.epoch, cmd := some cmd
                                 page := some (((s.launch? x.key.lid).map (·.root)).getD 0, va / 2 ^ 16) }] } ∧
        t.mem = s.mem ∧ t.warps = s.warps ∧ nget? (t.core core).cmds cmd = some x ∧ (t.core core).locks = (s.core core).locks }
  | _ => none

/-- The first iteration that cannot be serviced (R300, R301, R303, R305): its number, cause, reason and address. A source that
may not be read; an index of a gather at or above LIMIT; and an MMA on a core without a matrix column. -/
def endsAt (s : State) (core : Nat) (x : Command) (w : Warp) : Option (Nat × Nat × Nat × Nat) :=
  let first := firstStuck s core x w
  match x.instr with
  | .mma .. => if (s.core core).retiredCols = BitVec.allOnes 16 ∧ x.done < x.params.total ∧ x.written = [] then some (x.done, 0x23, 6, 0) else none
  | .copy _ _ _ .memory _ .strided _ _ => first.bind fun n => (sourceFault s core x n).bind fun (r, va) =>
      if r = 3 ∨ r = 4 then some (n, 0x11, r, va) else none
  | .copy _ _ _ _ _ .gather esz _ => first.bind fun n => (scratchOf s x (x.params.misc + 4 * n) 4).bind fun b =>
      if (ofBytes b : Int) < x.params.step0 4 then none else some (n, 0x23, 5, x.params.addr0 + ofBytes b * 2 ^ esz.val)
  | _ => none

/-- A conversion's completion; a stop at a stop point, and one at a fault that the runtime services; an end; and an
admission. -/
def engineStops (s : State) (x : Command) (w : Warp) (q : Group) : Instr → Option Event
  | .tcvtCompletion core cmd =>
    match x.instr, x.fill with
    | .tcvt _ m mode ta _, some td =>
      let ha := s.tileShape x.key (w.tile ta.val)
      let ht := s.tileShape x.key (w.tile td)
      some
        { need := s.commandOf core cmd = some x ∧ x.num = cmd ∧ 32 ≤ cmd ∧ s.grid.drained = false ∧
            (s.cluster (clusterOf core)).retained = false ∧ x.stage = .admitted ∧ s.warp? x.key = some w ∧ w.ended = false ∧
            x.key ∈ s.warpsOf (s.groupKey x.key) ∧ x.reads = [ta.val] ∧ td ≠ ta.val
          post := fun t => nget? (t.core core).cmds x.num = none ∧ MemSame s t ∧
            (t.warp? x.key).map (·.tile ta.val) = some (w.tile ta.val).readDone ∧
            (t.warp? x.key).map (·.tile td) = some ((w.tile td).fillDone (packedImage ht (if m then mode else slotMode ht.slot)
              (slotSat ht.slot) (fun n => genSteps n x.gen) (elemVal ha (w.tile ta.val).image))) }
    | _, _ => none
  | .engineStop core cmd upto => some
      { need := Running s core cmd x w q ∧ x.done ≤ upto ∧ upto < x.params.total ∧ x.written = [] ∧ s.awaits core x = false ∧ (s.core core).retiredCols ≠ BitVec.allOnes 16 ∧
          (silent x = true ∨ ∀ n, x.done ≤ n → n < upto → (movedBy s core x w n).isSome = true) ∧
          (serviced core upto ≠ none ∨ (upto % x.params.span = 0 ∧ s.stopsCommands core = true ∧
            (silent x = true ∨ (movedBy s core x w upto).isSome = true)))
        post := fun t => ∃ y, nget? (t.core core).cmds cmd = some y ∧ y.done = upto ∧ y.key = x.key ∧ y.instr = x.instr ∧ y.params = x.params ∧
          (t.core core).locks = (s.core core).locks ∧ (∀ g sp ta tb slot o c n, x.instr = .mma g sp ta tb slot o c n →
            accumulated s t x w ta.val tb.val n x.done upto) ∧
          wroteAll s t core x w (x.fill.getD 0) (s.tileShape x.key (w.tile (x.fill.getD 0))) x.done upto ∧
          (serviced core upto = none → y.stage = .waiting ∧ y.record = x.record) ∧
          ∀ reason va, serviced core upto = some (reason, va) → y.stage = .stopped ∧
            ∃ r ∈ (t.die (dieOf core)).fq.waiting, y.record = some (dieOf core, r.tag) ∧ r.tag = (s.die (dieOf core)).fq.nextTag ∧
              r.cause = 0x23 ∧ r.reason = reason ∧ r.flags = 2 ∧ r.index = cmd ∧ r.lid = x.key.lid ∧ r.warp = x.key.w ∧
              r.mask = 2 ^ x.lane ∧ r.addr = va % 2 ^ 64 ∧ r.pc = x.pc ∧ r.hdr = x.hdr }
  | .engineEnd core cmd =>
    (endsAt s core x w).map fun (n, cause, reason, va) =>
      { need := Running s core cmd x w q
        post := fun t => ∃ y, nget? (t.core core).cmds cmd = some y ∧ y.stage = .ended ∧ Left s t core x w Tile.fillEnded ∧
          (∃ r ∈ (t.die (dieOf core)).fq.waiting, r.cause = 0x23 ∧ r.reason = reason ∧ r.flags = 2 ∧ r.index = cmd ∧
            r.lid = x.key.lid ∧ r.warp = x.key.w ∧ r.mask = 2 ^ x.lane ∧ r.addr = va % 2 ^ 64) ∧
          (t.warp? x.key).bind (fun w' => w'.fibre? x.lane) = (w.fibre? x.lane).map (fun f =>
            { f with causes := f.causes ++ [{ cause := 0x23, info1 := BitVec.ofNat 32 va, source := .command cmd,
                                              info0 := BitVec.ofNat 32 (cause + x.w0.toNat / 2 ^ 24 * 2 ^ 8 + reason * 2 ^ 16) }] }) ∧
          (n < x.params.total → x.fill = none → wroteAll s t core x w 0 ⟨0, 0, 0⟩ x.done n) }
  | .commandAdmission cluster =>
    match s.nextAdmission cluster with
    | some (c, y) => some
        { need := s.grid.down = false
          post := fun t => t.cluster cluster = { s.cluster cluster with bal := (s.cluster cluster).bal - y.params.energy, lastCore := c } ∧
            nget? (t.core (32 * cluster + c)).cmds y.num = some { y with stage := .admitted } ∧
            { t with clusters := s.clusters, cores := s.cores } = s ∧
            (∀ j, j ≠ cluster → t.cluster j = s.cluster j) ∧ ∀ j, j ≠ 32 * cluster + c → t.core j = s.core j }
    | none => some { post := fun t => t = s }
  | _ => none
where
  /-- The fault at an iteration's source that the runtime services (R299, R301). -/
  serviced (core n : Nat) : Option (Nat × Nat) := (sourceFault s core x n).filter (fun e => e.1 == 1 || e.1 == 2)

/-! ### The fault queues and their answers (R315 to R320) -/

/-- The answer closes the record: its die waits for it no more, nor does a group. -/
def closed (t : State) (d : Nat) (tag : Word) : Prop :=
  (∀ r ∈ (t.die d).fq.open_, r.tag ≠ tag) ∧ ∀ g ∈ t.groups, (d, tag) ∉ g.2.records

/-- The record that an answer names, and the warp it names, whose group stands on a core, its image nowhere. -/
structure Answered (s : State) (d : Nat) (tag : Word) (r : FaultRec) (w : Warp) : Prop where
  record : s.openRecord d tag = some r
  warp : s.warp? r.key = some w
  place : ∃ q c, s.group? (s.groupKey r.key) = some q ∧ q.place = .resident c ∧ (s.cluster (clusterOf c)).saveOf (s.groupKey r.key) = none

/-- The lanes that a record's MASK names. -/
def named (r : FaultRec) : List Lane := (List.range 64).filter (fun l => r.mask.testBit l)

/-- The oldest record of a die that waits is written to its ring (R316); the ring's control (R317); and the three answers
(R318): to a fetch or a poisoned access, to a logged access, and to a stopped command. -/
def faultEvents (s : State) (w : Warp) : Instr → Option Event
  | .faultRecordPost die =>
    let q := (s.die die).fq
    match q.waiting with
    | r :: rest =>
      if q.ctl.getLsbD 5 = true ∧ (q.prod - q.cons).toNat < 2 ^ (q.ctl.toNat % 32) ∧ s.grid.drained = false then
        let a := q.baseHi.toNat * 2 ^ 32 + q.baseLo.toNat + 64 * (q.prod.toNat % 2 ^ (q.ctl.toNat % 32))
        some { post := fun t => MemSameBut s t a 64 ∧
                 holds t a [(0, 1, r.cause), (1, 1, r.reason), (2, 1, r.flags), (3, 1, r.index), (4, 4, r.tag.toNat), (8, 4, r.lid.toNat),
                   (12, 4, r.warp), (16, 8, r.mask), (24, 8, r.addr), (32, 4, r.pc.toNat), (36, 4, r.hdr.toNat), (40, 4, r.place),
                   (44, 4, 0), (48, 16, r.engrec)] ∧
                 (t.die die).fq = { q with waiting := rest, prod := q.prod + 1
                                           open_ := if r.flags.testBit 4 || r.flags.testBit 3 || r.stale then q.open_ else q.open_ ++ [r] } ∧
                 (∀ d, d ≠ die → t.die d = s.die d) ∧ t.out = s.out ++ [.vector (2 + die)] }
      else some { post := fun t => t = s }
    | [] => some { post := fun t => t = s }
  | .fqctlWrite die v =>
    let q := (s.die die).fq
    let legal : Bool := decide (4 ≤ v.toNat % 32 ∧ v.toNat % 32 ≤ 16) && decide (q.baseHi.toNat * 2 ^ 32 + q.baseLo.toNat < 2 ^ 43) &&
      s.backs (q.baseHi.toNat * 2 ^ 32 + q.baseLo.toNat) (64 * 2 ^ (v.toNat % 32))
    let after : FaultQueue :=
      if q.ctl.getLsbD 5 then { q with ctl := (q.ctl &&& 0x1F) ||| (v &&& 0x20) }
      else if !v.getLsbD 5 then { q with ctl := v &&& 0x3F }
      else if legal then { q with ctl := v &&& 0x3F, prod := q.cons }
      else { q with ctl := v &&& 0x1F, cfgerr := true }
    some { post := fun t => (∀ d, d ≠ die → t.die d = s.die d) ∧ { t with dies := s.dies } = s ∧
             t.die die = { s.die die with fq := after } }
  | .fqrespResume die tag =>
    match s.openRecord die tag with
    | none => some { post := fun t => t = s }
    | some r =>
      if r.flags.testBit 5 then none
      else if r.flags.testBit 0 then
        (w.log.find? (fun e => e.2.tag == tag && e.2.die == die)).map fun (i, e) =>
          { need := Answered s die tag r w ∧ replays r.key i e
            post := fun t => closed t die tag ∧ (t.warp? r.key).map (fun w' => nget? w'.log i) = some none ∧ WarpsSameBut s t r.key ∧
              (t.warp? r.key).map (·.pend.length) = some (w.pend.length + e.mask.length) ∧ MemSame s t }
      else if r.flags.testBit 1 then
        (s.stoppedCommand die tag).map fun (g, x) =>
          { need := ∃ c q, s.group? g = some q ∧ q.place = .resident c ∧ (s.cluster (clusterOf c)).saveOf g = none ∧
              s.commandOf c x.num = some x
            post := fun t => closed t die tag ∧ MemSame s t ∧ t.warps = s.warps ∧ ∀ c, s.groupCore g = some c →
              nget? (t.core c).cmds x.num = some { x with stage := .waiting, record := none, fault := 0 } }
      else some
        { need := Answered s die tag r w ∧ ∀ e ∈ w.log, e.2.answered = false
          post := fun t => closed t die tag ∧ MemSame s t ∧ WarpsSameBut s t r.key ∧
            t.warp? r.key = some { w with
              parked := if w.parked = some (die, tag) then none else w.parked
              pend := w.pend.map (fun p => if p.stage = .poisoned die tag then { p with stage := .waiting } else p) } }
  | .fqrespDeliver die tag =>
    match s.openRecord die tag with
    | none => some { post := fun t => t = s }
    | some r =>
      if r.flags.testBit 5 then (s.heldEntry die tag).map fun (c, e) =>
        { post := fun t => closed t die tag ∧ MemSame s t ∧ t.warps = s.warps ∧ (t.core c).comb = (s.core c).comb.erase e }
      else if r.flags.testBit 0 then
        match w.log.find? (fun e => e.2.tag == tag && e.2.die == die) with
        | some (i, e) =>
          match e.mask with
          | [l] => some
              { need := Answered s die tag r w ∧ e.acted = false ∧ ∃ f, w.fibre? l = some f ∧ f.causes = []
                post := fun t => closed t die tag ∧ MemSame s t ∧ WarpsSameBut s t r.key ∧ ∃ w', t.warp? r.key = some w' ∧ nget? w'.log i = none ∧
                  w'.pend = w.pend ∧ ∀ l', w'.fibre? l' = (w.fibre? l').map (fun f => if l' = l then
                    { f with causes := [{ cause := BitVec.ofNat 8 r.cause, reason := r.reason, info0 := lo32 (addressOf e l)
                                          info1 := hi32 (addressOf e l)
                                          source := .access (((e.dst.find? (fun a => a.1 == l)).map (·.2)).getD []) }] } else f) }
          | _ => none
        | none => none
      else if r.flags.testBit 1 then none
      else if r.flags.testBit 2 then
        (s.launch? r.key.lid).map fun la =>
          { need := Answered s die tag r w ∧ la.hdlr = true ∧ ∀ l ∈ named r, ∃ f, w.fibre? l = some f ∧ f.handler = false
            post := fun t => closed t die tag ∧ MemSame s t ∧ WarpsSameBut s t r.key ∧ ∃ w', t.warp? r.key = some w' ∧
              w'.parked = (if w.parked = some (die, tag) then none else w.parked) ∧
              ∀ l, w'.fibre? l = (w.fibre? l).map (fun f => if l ∈ named r then
                { f with handler := true, pc := la.record.handler, hdr := la.record.handler, inside := false, body := [], refetch := false
                         tr := { cause := BitVec.ofNat 32 (r.cause % 256 + 2 ^ 8 + r.reason % 8 * 2 ^ 9), info0 := r.hdr, info1 := 0
                                 pc := r.pc, hdr := r.hdr } } else f) }
      else none
  | .fqrespEnd die tag =>
    match s.openRecord die tag with
    | none => some { post := fun t => t = s }
    | some r =>
      if r.flags.testBit 5 then none
      else (s.launch? r.lid).map fun la =>
        { need := (∃ q, s.group? (s.groupKey r.key) = some q) ∧ la.groupsEnded + 1 < la.record.groups
          post := fun t => (∀ x ∈ (t.die die).fq.open_, x.tag ≠ tag) ∧ MemSame s t ∧ t.group? (s.groupKey r.key) = none ∧
            (∀ k ∈ s.warpsOf (s.groupKey r.key), t.warp? k = none) ∧
            (t.launch? r.lid).map (fun l => (l.groupsEnded, l.failed.isSome)) = some (la.groupsEnded + 1, true) ∧
            ∃ d, ∃ x ∈ (t.die d).fq.waiting, x.flags = 8 ∧ x.cause = r.cause ∧ x.reason = r.reason ∧ x.lid = r.lid ∧ x.warp = r.warp ∧
              x.mask = r.mask ∧ x.addr = r.addr ∧ x.pc = r.pc ∧ x.hdr = r.hdr }
  | _ => none
where
  /-- The address of a lane's logged access. -/
  addressOf (e : LogEntry) (l : Lane) : DWord := ((e.addrs.find? (fun a => a.1 == l)).map (·.2)).getD 0
  /-- The entry is a load or a store, and each of its lanes translates now. -/
  replays (k : WarpKey) (i : Nat) (e : LogEntry) : Prop := s.inject.arm = false ∧ nget? w.log i = some e ∧ e.mask ≠ [] ∧
    ∃ j m, decodeWords e.w0 e.w1 = .ok j ∧ accessOf j = some m ∧ (m.op = .store ∨ ∃ c, m.op = .load c) ∧
      ∀ l ∈ e.mask, ∃ pa p, s.translate (s.coreNo k) (((s.launch? k.lid).map (·.root)).getD 0) (addressOf e l).toNat m.op.kind =
        .ok pa p ∧ m.op.straddles (addressOf e l).toNat = false

/-! ### Where images and the drain image keep things (R323 to R327, R356) -/

/-- The number in `n` bytes of a list, and in `n` bytes of flash: the lowest byte first. -/
def numberAt (b : List Byte) (o n : Nat) : Nat := ((List.range n).map fun i => (b.getD (o + i) 0).toNat * 2 ^ (8 * i)).sum
def flashAt (m : NMap Byte) (o n : Nat) : Nat := ((List.range n).map fun i => (ngetD m 0 (o + i)).toNat * 2 ^ (8 * i)).sum
/-- Fields (an offset from `o`, a width in bytes, a number) that bytes hold, each as far as its width goes. -/
def Holds (num : (o n : Nat) → Nat) (o : Nat) (l : List (Nat × Nat × Nat)) : Prop :=
  ∀ e ∈ l, num (o + e.1) e.2.1 = e.2.2 % 2 ^ (8 * e.2.1)
/-- Rounded up to a multiple. -/
def upTo (z n : Nat) : Nat := (n + z - 1) / z * z
/-- A set of lanes or registers as a mask. -/
def maskFor (p : Nat → Bool) : Nat := ((List.range 64).map fun l => if p l then 2 ^ l else 0).sum
/-- A bit in its place. -/
def bitAt (b : Bool) (n : Nat) : Nat := if b then 2 ^ n else 0

/-- The fields of a fibre record (R325): a fibre that does not stand inside a clause has its PC as HDR, and a cause that waits to be
taken stands in TRAP while the handler flag is clear. -/
def fibreFields (f : Fibre) : List (Nat × Nat × Nat) :=
  let trap : List (Nat × Nat × Nat) := match f.handler, f.causes with
    | false, d :: _ => [(0x14, 4, d.cause.toNat + 2 ^ 8 + d.reason % 8 * 2 ^ 9 + bitAt d.indet 12), (0x18, 4, d.info0.toNat),
        (0x1C, 4, d.info1.toNat)]
    | _, _ => [(0x14, 4, f.tr.cause.toNat), (0x18, 4, f.tr.info0.toNat), (0x1C, 4, f.tr.info1.toNat), (0x20, 4, f.tr.pc.toNat),
        (0x24, 4, f.tr.hdr.toNat)]
  let page : List (Nat × Nat × Nat) := match f.lastPage with
    | some p => [(0x30, 8, p.vpage % 2 ^ 40 + bitAt p.r 40 + bitAt p.w 41 + bitAt p.x 42 + 2 ^ 43), (0x38, 8, p.ppage % 2 ^ 40)]
    | none => [(0x30, 8, 0), (0x38, 8, 0)]
  [(0x00, 4, f.pc.toNat), (0x04, 4, if f.inside then f.hdr.toNat else f.pc.toNat), (0x08, 4, f.lr.toNat),
   (0x0C, 4, f.wb % 2 ^ 16 + f.depth % 2 ^ 8 * 2 ^ 16 + f.preds.toNat * 2 ^ 24 + bitAt f.handler 31), (0x10, 4, f.gen.toNat)] ++
  trap ++ [(0x28, 4, f.tr.save0.toNat), (0x2C, 4, f.tr.save1.toNat)] ++ page

/-- The fields of an operand-log entry (R326); a free one has MASK 0. -/
def logFields : Option LogEntry → List (Nat × Nat × Nat)
  | none => [(0x10, 8, 0)]
  | some e => [(0x00, 4, e.w0.toNat), (0x04, 4, e.w1.toNat), (0x08, 4, e.pc.toNat), (0x0C, 4, e.hdr.toNat),
      (0x10, 8, maskFor e.mask.contains), (0x18, 8, e.tag.toNat + bitAt e.answered 32)] ++
    (List.range 64).map (fun l => (0x20 + 8 * l, 8, ((e.addrs.find? (·.1 == l)).map (·.2.toNat)).getD 0)) ++
    (List.range 64).map (fun l => (0x220 + 16 * l, 16, ((e.data.find? (·.1 == l)).map (·.2)).getD 0))

/-- The size of a warp section (R324). -/
def sectionBytes (l : Launch) (w : Warp) : Nat := upTo 256 (0x2A80 + 4 * l.width * w.alloc + l.width * w.alloc / 8)
/-- The fields of a warp section, outside its registers. -/
def warpFields (w : Warp) : List (Nat × Nat × Nat) :=
  let sreg (r : Nat) : Entry := ngetD w.sregs Entry.zero r
  [(0x00, 4, w.warpid % 2 ^ 8 + bitAt w.serial 8 + bitAt w.ended 9 + w.alloc * 2 ^ 16), (0x04, 4, w.c),
   (0x08, 8, maskFor w.q.contains), (0x10, 8, maskFor (fun l => (w.fibre? l).isSome)), (0x18, 8, w.retired), (0x20, 8, w.lift),
   (0x28, 8, maskFor (fun r => (sreg r).full)),
   (0x30, 2, match w.waiting with
     | .grow n => n
     | _ => 0),
   (0x38, 8, w.arrived.toNat), (0x40, 8, w.apar.toNat), (0x48, 8, w.dropped.toNat), (0x50, 0xB0, 0)] ++
  (List.range 64).map (fun r => (0x100 + 4 * r, 4, (sreg r).val.toNat)) ++
  (List.range 64).flatMap (fun l => (((w.fibre? l).map fibreFields).getD [(0, 64, 0)]).map (fun e => (0x200 + 64 * l + e.1, e.2))) ++
  (List.range 4).flatMap (fun i => (logFields (nget? w.log i)).map (fun e => (0x1200 + 0x620 * i + e.1, e.2)))
/-- The two words of a tile (R327). -/
def tileFields (t : Nat) (x : Tile) : List (Nat × Nat × Nat) :=
  let state : Nat := match x.state with
    | .empty => 0
    | .filling => 1
    | .ready => 2
    | .draining => 3
  [(4 * t, 4, x.ctl.toNat),
   (64 + 4 * t, 4, state + bitAt x.cfg 2 + x.readers % 2 ^ 8 * 2 ^ 8 +
     ((x.cause.map fun c => c.1.toNat * 2 ^ 16 + c.2 % 8 * 2 ^ 24).getD 0))]

/-- The image of a group (R323 to R327): its header, a section for each warp, the words and images of their tiles, the ring, the
records of its commands, and its scratch. -/
def ImageLaid (s : State) (g : GroupKey) (l : Launch) (q : Group) (ws : List Warp) : Prop :=
  let b := s.image g
  let cs := s.imageCommands g
  let live (w : Warp) : List Nat := (List.range 16).filter (fun t => decide ((w.tile t).state ≠ .empty))
  let foot (w : Warp) (t : Nat) : Nat := ((w.tile t).shape l).footprint
  let pictures : List (Warp × Nat) := ws.flatMap fun w => (live w).map (fun t => (w, t))
  let sum (l : List Nat) : Nat := l.sum
  let tiles := 256 + sum (ws.map (sectionBytes l))
  let ring := tiles + upTo 256 (128 * ws.length + sum (pictures.map fun p => foot p.1 p.2))
  let commands := ring + 16384 * l.record.accs
  let scratch := commands + upTo 256 (128 + 128 * cs.length)
  let len := scratch + upTo 256 l.record.scratch
  let bar (i : Nat) : Nat :=
    let x := s.barrier ⟨g.lid, .core, g.g, i⟩
    x.e % 2 ^ 12 + x.count % 2 ^ 12 * 2 ^ 12 + bitAt x.parity 24 + x.engines % 2 ^ 8 * 2 ^ 32
  let slotState (i : Nat) : Nat := match (q.slot i).state with
    | .free => 0
    | .opened => 1
    | .full => 2
    | .draining => 3
  b.length = len ∧
  Holds (numberAt b) 0 ([(0x00, 4, 0x00010000), (0x04, 4, g.lid.toNat), (0x08, 4, g.g), (0x0C, 1, l.record.warps), (0x0D, 1, l.width),
    (0x0E, 1, l.record.accs), (0x0F, 1, bitAt l.det 0 + bitAt l.prot 1), (0x10, 4, l.record.scratch), (0x14, 4, l.record.tiles),
    (0x18, 4, l.stepNo.toNat), (0x1C, 4, s.tlbi.gen.toNat), (0x20, 8, 256), (0x28, 8, tiles), (0x30, 8, ring), (0x38, 8, commands),
    (0x40, 8, scratch), (0x48, 8, len), (0xD0, 1, q.head), (0xD1, 1, q.tail),
    (0xD2, 2, sum ((List.range 8).map fun i => slotState i * 4 ^ i)), (0xD4, 0x2C, 0)] ++
    (List.range 16).map (fun i => (0x50 + 8 * i, 8, bar i))) ∧
  (∀ i w, ws[i]? = some w →
    let o := 256 + sum ((ws.take i).map (sectionBytes l))
    Holds (numberAt b) o (warpFields w) ∧
    (∀ lane f j, lane < l.width → w.fibre? lane = some f → j < w.alloc →
      numberAt b (o + 0x2A80 + 4 * (lane * w.alloc + j)) 4 = (f.entry j).val.toNat ∧
      (b.getD (o + 0x2A80 + 4 * l.width * w.alloc + (lane * w.alloc + j) / 8) 0).getLsbD ((lane * w.alloc + j) % 8) = (f.entry j).full) ∧
    ∀ t, t < 16 → Holds (numberAt b) (tiles + 128 * i) (tileFields t (w.tile t))) ∧
  (∀ i w t j, pictures[i]? = some (w, t) → j < foot w t →
    b.getD (tiles + 128 * ws.length + sum ((pictures.take i).map fun p => foot p.1 p.2) + j) 0 = imgByte (w.tile t).image j) ∧
  (∀ i j, i < l.record.accs → j < 4096 → numberAt b (ring + 16384 * i + 4 * j) 4 = (ngetD (q.slot i).elems 0 j).toNat) ∧
  numberAt b commands 4 = cs.length % 2 ^ 32 ∧
  (∀ (i : Nat) x, cs[i]? = some x → Holds (numberAt b) (commands + 128 + 128 * i) [(0, 4, x.w0.toNat), (4, 4, x.w1.toNat),
    (8, 64, x.params.raw), (0x48, 24, x.faultField), (0x60, 2, ((s.warp? x.key).map (·.warpid)).getD 0), (0x62, 2, x.lane), (0x64, 1, x.num)]) ∧
  ∀ i, i < l.record.scratch → b.getD (scratch + i) 0 = ngetD q.scratch 0 i

/-- Every group's image is laid so, when the number of a command's warp fits its field. -/
def ImagesLaid : Prop :=
  ∀ s g l q ws, s.launch? g.lid = some l → s.group? g = some q → (s.warpsOf g).map s.warp? = ws.map some →
    (∀ x ∈ s.imageCommands g, (((s.warp? x.key).map (·.warpid)).getD 0) < 2 ^ 16) → ImageLaid s g l q ws

/-- The drain image in flash (R356): the header of 4 KiB, and four sections, each from a multiple of 4 KiB on. Launches stand in
ascending lid. What the front end's device queue keeps as its indices is log entry 92's. -/
def DrainLaid (s : State) (m : NMap Byte) (drains : Nat) : Prop :=
  ∃ ls : List Launch, ls.Perm (s.launches.map (·.2)) ∧ ls.Pairwise (fun a b => a.record.lid.toNat ≤ b.record.lid.toNat) ∧
  let bs := s.allInstances
  let ds := s.ownedDeques
  let images := s.drainImages.map (·.2.length)
  let sum (l : List Nat) : Nat := l.sum
  let size (d : Nat × Word × List DWord) : Nat := 16 + 8 * d.2.2.length
  let len1 := 16528 + 256 * ls.length
  let len2 := 16 * bs.length
  let len3 := sum (ds.map size)
  let two := upTo 4096 (4096 + len1)
  let three := upTo 4096 (two + len2)
  let four := upTo 4096 (three + len3)
  let entry (kind off len count : Nat) : List (Nat × Nat × Nat) :=
    let o := 0x80 + 32 * (kind - 1)
    [(o, 1, kind), (o + 1, 7, 0), (o + 8, 8, off), (o + 16, 8, len), (o + 24, 4, count), (o + 28, 4, 0)]
  let stage (l : Launch) : Nat := match l.stage with
    | .accepted 16 => 3
    | .accepted _ => 1
    | _ => 2
  Holds (flashAt m) 0 ([(0, 4, 0x00010000), (4, 4, 1), (8, 4, drains % 2 ^ 16), (0xC, 4, s.domid), (0x10, 4, 4), (0x14, 4, s.tlbi.gen.toNat),
    (0x18, 8, four + sum images - 4096), (0x20, 0x60, 0)] ++ entry 1 4096 len1 ls.length ++ entry 2 two len2 bs.length ++
    entry 3 three len3 ds.length ++ entry 4 four (sum images) images.length) ∧
  Holds (flashAt m) 4096 ((List.range 16).flatMap (fun i => [(8 * i, 4, (s.queue i).prod.toNat), (8 * i + 4, 4, (s.queue i).cons.toNat)]) ++
    [(128, 8, s.front.device.length), (136, 8, 0)]) ∧
  (∀ (i : Nat) o, s.front.outcomes[i]? = some o → Holds (flashAt m) (4096 + 144 + 16 * i)
    [(0, 4, o.1.toNat), (4, 8, o.1.toNat * 2 ^ 32 + o.2.2 % 2 ^ 8 * 2 ^ 8 + o.2.1), (12, 4, 0)]) ∧
  (∀ (i : Nat) l, ls[i]? = some l → Holds (flashAt m) (4096 + 16528 + 256 * i) ([(128, 4, l.stepNo.toNat), (132, 4, stage l),
    (136, 4, maskFor l.dies.contains), (140, 4, l.placed * l.record.gang), (144, 4, l.groupsEnded), (148, 108, 0)] ++
    (List.range 128).map (fun j => (j, 1, (l.record.bytes.getD j 0).toNat)))) ∧
  (∀ (i : Nat) b, bs[i]? = some b → Holds (flashAt m) (two + 16 * i) [(0, 4, b.lid.toNat), (4, 1, b.scope.code), (5, 1, b.index), (6, 2, s.barUnit b),
    (8, 4, (s.barrier b).e % 2 ^ 28), (12, 4, (s.barrier b).count % 2 ^ 28 + bitAt (s.barrier b).parity 28)]) ∧
  ∀ (i : Nat) d, ds[i]? = some d → Holds (flashAt m) (three + sum ((ds.take i).map size)) ([(0, 4, placeWord d.1), (4, 4, d.2.1.toNat),
    (8, 4, d.2.2.length), (12, 4, 0)] ++ ((List.range d.2.2.length).zip d.2.2).map (fun e => (16 + 8 * e.1, 8, e.2.toNat)))


/-! ### Groups that leave their cores (R204, R319, R321, R322) -/

/-- A group has no command on its core, and none is running there. -/
def noCommands (s : State) (k : GroupKey) (c : Nat) : Prop := s.groupCommands k c = [] ∧ ∀ e ∈ (s.core c).cmds, e.2.stage ≠ .admitted

/-- A group that has waited too long for its answers; one that the runtime names; and the swap-out of a gang of one group
without commands, into the save pool if there is room. -/
def swapEvents (s : State) : Instr → Option Event
  | .serviceSwapOut lid g =>
    (s.group? ⟨lid, g⟩).map fun q =>
      { need := (∃ c, q.place = .resident c ∧ (s.die (dieOf c)).fq.delay ≠ 0) ∧ q.records ≠ [] ∧ s.gangKeys ⟨lid, g⟩ = [⟨lid, g⟩] ∧
          (s.launch? lid).isSome = true
        post := fun t => t.group? ⟨lid, g⟩ = some { q with forService := true, stopping := true } ∧ { t with groups := s.groups } = s ∧
          ∀ k, k ≠ ⟨lid, g⟩ → t.group? k = s.group? k }
  | .swapreq v =>
    let k : GroupKey := ⟨s.front.swapLid, v.toNat⟩
    match s.group? k with
    | some q =>
      match q.place with
      | .resident _ => some
        { need := s.gangKeys k = [k] ∧ (s.launch? k.lid).isSome = true
          post := fun t => t.group? k = some { q with stopping := true } ∧ { t with groups := s.groups } = s ∧
            ∀ j, j ≠ k → t.group? j = s.group? j }
      | _ => some { post := fun t => t = s }
    | none => some { post := fun t => t = s }
  | .swapOut lid g =>
    let k : GroupKey := ⟨lid, g⟩
    let n := (s.image k).length
    (s.group? k).map fun q =>
      { need := (∃ c, q.place = .resident c ∧ (s.core c).comb = [] ∧ noCommands s k c) ∧ s.gangKeys k = [k] ∧
          s.mayLeave k = true ∧ s.grid.draining = false
        post := fun t =>
          (s.poolRoom n = none → { t with groups := s.groups } = { s with front := { s.front with poolFull := true } } ∧
            t.group? k = some { q with waitsRoom := true } ∧ ∀ j, j ≠ k → t.group? j = s.group? j) ∧
          ∀ a, s.poolRoom n = some a → a + n ≤ s.poolEnd ∧ (∀ e ∈ s.pooled, overlaps a n e.1 e.2 = false) ∧
            (t.group? k).map (fun q => (q.place, q.waitsRoom)) = some (.saved a n, false) ∧ memBytes t.mem a n = s.image k ∧
            MemSameBut s t a n }
  | _ => none

/-! ### Power that follows the grid (R340 to R348) -/

/-- A frame of 16 bytes with a good CRC, a known TYPE and zero reserved bytes (R340). -/
def validFrame (f : List Byte) (type : Nat) : Prop := frameOk f = true ∧ numAt f 0 1 = type

/-- A message leaves the package; a vector whose table entry masks it is pending besides (R386). -/
def told (s : State) (m : Msg) : State := { s with out := s.out ++ [m], host := (match m with
    | .vector n => if (ngetD s.host.table (BitVec.ofNat 128 (2 ^ 96)) n).getLsbD 96
        then { s.host with pending := s.host.pending ||| BitVec.ofNat 16 (2 ^ n) } else s.host
    | _ => s.host) }

/-- TARGET is formed again from the grid's state (R344), UNMET says whether it lies below 1,200 W, and vector 9 is raised when
UNMET sets (R347, R386). -/
def formed (s t : State) (g : Grid) : Prop :=
  let target := min (min g.pmax 3700) (min g.curve g.stepCeil)
  let unmet := decide (target < 1200)
  let u : State := { s with grid := { g with target := target, unmet := unmet } }
  t = (if unmet && !s.grid.unmet then told u (.vector 9) else u)
/-- One that a frame formed so: where TARGET has fallen, the 600 µs of the backstop begin (R347). -/
def framed (s t : State) (g : Grid) : Prop :=
  ∃ u, formed s u g ∧ t = { u with grid := { u.grid with falls := g.falls + (if u.grid.target < s.grid.target then 1 else 0) } }

/-- The next element of the throttle order (R345), and the one before. -/
def nextAction : Nat × Nat → Option (Nat × Nat)
  | (0, 0) => some (1, 0) | (1, 0) => some (2, 0) | (2, 0) => some (3, 0) | (3, 0) => some (4, 0) | (4, 0) => some (5, 1)
  | (5, 1) => some (5, 2) | (5, 2) => some (6, 0) | (6, 0) => some (7, 1) | (7, 1) => some (7, 2) | (7, 2) => some (7, 3)
  | _ => none
def lastAction : Nat × Nat → Option (Nat × Nat)
  | (1, 0) => some (0, 0) | (2, 0) => some (1, 0) | (3, 0) => some (2, 0) | (4, 0) => some (3, 0) | (5, 1) => some (4, 0)
  | (5, 2) => some (5, 1) | (6, 0) => some (5, 2) | (7, 1) => some (6, 0) | (7, 2) => some (7, 1) | (7, 3) => some (7, 2)
  | _ => none

/-- The breakpoints' DEV fields do not decrease (R343). -/
def ordered (bp : List Word) : Bool :=
  (List.range (bp.length - 1)).all (fun i => decide (((bp.getD i 0).extractLsb' 16 16).toInt ≤ ((bp.getD (i + 1) 0).extractLsb' 16 16).toInt))

/-- The grid after a write to the register at an offset of its block (R342, R343). -/
def gridWrite (g : Grid) (off : Nat) (v : Word) : Grid :=
  if off = 0x00 then { g with curveEn := v.getLsbD 0, stepEn := v.getLsbD 1 }
  else if off = 0x04 then { g with cfgErr := g.cfgErr && !v.getLsbD 6 }
  else if off = 0x08 then { g with fnom := v.toNat }
  else if off = 0x0C then { g with dband := v.toNat % 2 ^ 16 }
  else if 0x10 ≤ off ∧ off < 0x30 then
    { g with bp := g.bp.set (off / 4 - 4) v, cfgErr := g.cfgErr || !ordered (g.bp.set (off / 4 - 4) v) }
  else if off = 0x30 then { g with pmax := v.toNat % 2 ^ 16 }
  else if off = 0x34 then { g with fsafe := v.toNat % 2 ^ 16 }
  else if off = 0x38 then { g with shedDl := min 800 (max 100 (v.toNat % 2 ^ 16)) }
  else if off = 0x3C then { g with rstGap := v.toNat % 2 ^ 16 }
  else if off = 0x40 then { g with hyst := v.toNat % 2 ^ 16 }
  else if off = 0x5C then { g with resumed := g.resumed && !v.getLsbD 0 }
  else g

/-- Frames, which reach a package on a module only (R1), the acknowledgement of a step frame, the loss of the link, the registers, an interval of the throttle order, the
backstop, and the deadline of a class that is shed. -/
def gridEvents (s : State) : Instr → Option Event
  | .telemetryFrame f => some
      { post := fun t => (s.onModule = false → t = s) ∧ (s.onModule = true →
          (validFrame f 1 → framed s t { s.grid with freq := numAt f 2 4, vbus := numAt f 6 2, linkLost := false }) ∧
          (frameOk f = false → t = { s with grid := { s.grid with frameErr := min (s.grid.frameErr + 1) (2 ^ 32 - 1) } })) }
  | .stepFrame f =>
    let id := numAt f 2 2
    some
      { post := fun t => (s.onModule = false → t = s) ∧ (s.onModule = true →
          (frameOk f = false → t = { s with grid := { s.grid with frameErr := min (s.grid.frameErr + 1) (2 ^ 32 - 1) } }) ∧
          (validFrame f 2 → (s.grid.down = true ∨ s.grid.lastStep = some id) → t = s) ∧
          (validFrame f 2 → s.grid.down = false → s.grid.lastStep ≠ some id →
            (s.grid.stepEn = false → t = { s with grid := { s.grid with acks := s.grid.acks ++ [(id, true)] } }) ∧
            (s.grid.stepEn = true → framed s t
              { s.grid with stepId := id, stepCeil := numAt f 4 2, lastStep := some id, acks := s.grid.acks ++ [(id, false)] }))) }
  | .discardedFrame => some { post := fun t => t = { s with grid := { s.grid with frameErr := min (s.grid.frameErr + 1) (2 ^ 32 - 1) } } }
  | .frameerrRead => some { post := fun t => t = { s with grid := { s.grid with frameErr := 0 } } }
  | .stepAcknowledgement =>
    match s.grid.acks with
    | [] => some { post := fun t => t = s }
    | (id, ignored) :: rest =>
      let g := s.grid
      let body := [0x81#8] ++ bytesOf 1 g.ackSeq ++ bytesOf 2 id ++ bytesOf 2 g.pmeas ++
        bytesOf 1 ((if ignored || g.unmet then 1 else 0) + (if g.backstop then 2 else 0)) ++ bytesOf 5 0
      some { post := fun t => t = { s with
               grid := { g with acks := rest, ackSeq := (g.ackSeq + 1) % 256 }
               out := s.out ++ [.ack (body ++ bytesOf 4 (crc32 body).toNat)] } }
  | .linkLost => some { post := fun t =>
      (s.grid.linkLost = true → t = s) ∧
      (s.grid.linkLost = false → ∃ u, formed s u { s.grid with linkLost := true } ∧ t = told u (.vector 9)) }
  | .gridConfigWrite off v => some { post := fun t =>
      (off % 4 ≠ 0 → t = s) ∧
      (off % 4 = 0 → off ≠ 0x5C → formed s t (gridWrite s.grid off v)) ∧
      (off = 0x5C → ∃ u, formed s u (gridWrite s.grid off v) ∧
        t = (if s.grid.resumed && v.getLsbD 0 then told u (.vector 10) else u)) }
  | .throttleInterval power =>
    let g : Grid := { s.grid with pmeas := min power 65535 }
    some { post := fun t =>
      (s.grid.down = true → t = s) ∧
      (s.grid.down = false →
        (g.pmeas ≤ g.target → { t with grid := s.grid } = s) ∧
        (g.target < g.pmeas → (g.stage, g.sub) = (0, 0) → s.boot.iftStat = 1 → t.boot.iftStat = 5) ∧
        (g.target < g.pmeas → t.grid.quiet = 0 ∧ t.grid.pmeas = g.pmeas ∧ t.grid.backstop = g.backstop ∧ MemSame s t ∧
          (t.grid.stage, t.grid.sub) = (nextAction (g.stage, g.sub)).getD (g.stage, g.sub) ∧
          ∀ c, nextAction (g.stage, g.sub) = some ((if c = 3 then 3 else if c = 2 then 4 else 6), 0) → c = 1 ∨ c = 2 ∨ c = 3 →
            ∀ k ∈ s.groups, (∃ core, k.2.place = .resident core) → ((s.launch? k.1.lid).map (·.record.cls % 4)).getD 0 = c →
              ∀ j ∈ s.warpsOf k.1, ∀ w, t.warp? j = some w → w.shedMark = true) ∧
        (g.pmeas ≤ g.target → g.target < g.pmeas + g.hyst → t.grid = { g with quiet := 0 }) ∧
        (g.pmeas + g.hyst ≤ g.target → g.quiet + 1 < 2 * max 1 g.rstGap → t.grid = { g with quiet := g.quiet + 1 }) ∧
        (g.pmeas + g.hyst ≤ g.target → 2 * max 1 g.rstGap ≤ g.quiet + 1 →
          t.grid = { g with quiet := 0, backstop := false, stage := ((lastAction (g.stage, g.sub)).getD (g.stage, g.sub)).1
                            sub := ((lastAction (g.stage, g.sub)).getD (g.stage, g.sub)).2 })) }
  | .backstop =>
    let u : State := { s with grid := { s.grid with falls := s.grid.falls - 1 } }
    some { post := fun t =>
      (s.grid.falls = 0 → t = s) ∧
      (s.grid.falls ≠ 0 → (s.grid.backstop = true ∨ s.grid.down = true ∨ s.grid.pmeas ≤ s.grid.target) → t = u) ∧
      (s.grid.falls ≠ 0 → s.grid.backstop = false → s.grid.down = false → s.grid.target < s.grid.pmeas →
        t = told { u with grid := { u.grid with backstop := true } } (.vector 9)) }
  | .shedDeadline =>
    let marked (k : WarpKey) (w : Warp) : Prop := s.warp? k = some w ∧ w.shedMark = true ∧ w.stopMark = false
    some { need := (s.warps.map (·.1)).Nodup, post := fun t => { t with warps := s.warps } = s ∧ ∀ k w, s.warp? k = some w →
      (t.warp? k = some w ∨ (t.warp? k = some { w with stopMark := true } ∧ marked k w)) ∧
        (marked k w → (∀ k' w', (k', w') ∈ s.warps → w'.shedMark = true → w'.stopMark = false → s.classOf k' ≤ s.classOf k) →
          t.warp? k = some { w with stopMark := true }) }
  | _ => none

/-! ### Clusters (R310, R350 to R354) -/

/-- An interval of admission in every cluster; and the entry to and wake from retention of a cluster. -/
def clusterEvents (s : State) : Instr → Option Event
  | .admissionInterval => some { post := fun t =>
      (s.grid.down = true → t = s) ∧
      (s.grid.down = false → { t with clusters := s.clusters } = s ∧ ∀ i, i < 48 →
        let k := s.cluster i
        let share := if s.grid.stage < 5 then 1 else if s.grid.stage = 5 ∧ s.grid.sub = 1 then 2 else 4
        let r := max 1 k.refill / share
        (r < k.debt → t.cluster i = { k with debt := k.debt - r, blocked := true }) ∧
        (k.debt ≤ r → t.cluster i = { k with bal := min (k.bal + r - k.debt) (max r 65535), debt := 0, blocked := false })) }
  | .clusterRetentionEntry i =>
    let base := (s.cluster i).crHi.toNat % 2 ^ 11 * 2 ^ 32 + (s.cluster i).crLo.toNat / 2 ^ 16 * 2 ^ 16
    let size := (s.cluster i).crSz * 65536
    let imgs := (s.clusterGroups i).map (fun g => (g, s.image g))
    let total := (imgs.map (·.2.length)).foldl (· + ·) 0
    let idle : Bool := (s.clusterGroups i).all (fun g => (s.warpsOf g).all (fun k => (s.warp? k).all (s.cannotIssue k)))
    some { need := s.mayRetain i = true ∧ size ≠ 0 ∧ total ≤ size ∧ s.region base = .near (i / 12) ∧
             s.region (base + size - 1) = .near (i / 12) ∧
             ∀ g ∈ s.clusterGroups i, ∃ c, s.groupCore g = some c ∧ (s.core c).comb = [] ∧ noCommands s g c
           post := fun t => t.cluster i = { s.cluster i with retained := true, saves := layImages base imgs, asleep := s.sleepers i
                                                             cause := if idle then 0 else s.grid.stage } ∧ MemSameBut s t base total ∧
             (∀ e ∈ imgs.zip (layImages base imgs), memBytes t.mem e.2.2.1 e.1.2.length = e.1.2) ∧
             (∀ j, j ≠ i → t.cluster j = s.cluster j) ∧ ∀ c, c < 32 → (t.core (32 * i + c)).l1 = [] }
  | .clusterWake i mismatches =>
    let awake : State := s.modCluster i (fun k => { k with retained := false })
    -- the stage that caused the entry is released, or a warp that could not issue now can
    let wakeful : Prop := ((s.cluster i).cause ≠ 0 ∧ s.grid.stage < (s.cluster i).cause) ∨
      ∃ e ∈ (s.cluster i).asleep, awake.roused e.1 e.2 = true
    some { post := fun t =>
      ((s.cluster i).retained = false ∨ s.grid.down = true ∨ (s.wakes i = false) → t = s) ∧
      ((s.cluster i).retained = true → s.grid.down = false → wakeful → mismatches = 0 →
        t.cluster i = { s.cluster i with retained := false, saves := [], asleep := [], cause := 0 } ∧ MemSame s t ∧ t.warps = s.warps ∧
        ∀ c, c < 32 → ∀ n, nget? (t.core (32 * i + c)).cmds n =
          (nget? (s.core (32 * i + c)).cmds n).map (fun x => if x.stage = .paused then { x with stage := .waiting } else x)) ∧
      ((s.cluster i).retained = true → s.grid.down = false → wakeful → mismatches ≠ 0 → s.poison = [] →
        t.cluster i = { s.cluster i with retained := false, saves := [], asleep := [], cause := 0, crMiss := min ((s.cluster i).crMiss + mismatches) (2 ^ 32 - 1) }) }
  | _ => none

/-! ### Other packages (R369 to R375) -/

/-- The messages that leave when one is sent to a package: none where the fabric has no route to it (R378). -/
def toPackage (s : State) (p : Nat) (m : Msg) : List Msg := if p ≤ 4607 ∧ p ∉ s.router.unreached then [m] else []

/-- A warp that goes on, one of its items that waits for a request, and the request: the one that a sequence number and epoch
name. -/
structure Asked (s : State) (core dest seq : Nat) (epoch : Bool) (o : PeerOut) (w : Warp) (p : Pend) : Prop where
  request : (s.flow core dest).open_.find? (fun o => o.seq == seq && o.epoch == epoch) = some o
  own : o.cmd = none
  warp : s.warp? o.key = some w
  alive : w.ended = false
  member : o.key ∈ s.warpsOf (s.groupKey o.key)
  item : s.itemOf o = some p

/-- A request of another package: one of an epoch that its flow has closed, which the event marks as late; one that waits for the
rest of its run (R232); and the next of its flow, performed or refused, the first of a new epoch among them. The response to a load
or store of this package's warps and to an access of its commands, a fault response and a timeout; and the control of the
peer-fault ring. -/
def peerEvents (s : State) (o : PeerOut) (w : Warp) (p : Pend) : Instr → Option Event
  | .peerRequest src core seq kind addr epoch late more op ty data =>
    let g := (kget? s.inflows (src, core)).getD {}
    let f : InFlow := if g.epoch = epoch then g else { next := 0, epoch := epoch, held := [] }
    let a := addr % 2 ^ 43
    let z := if kind = 4 then data.length / 2 else data.length
    let old := memBytes s.mem a z
    let ask : PeerAsk := ⟨kind, a, op, ty, data, more⟩
    let backed : Bool := match s.region a with
      | .near _ | .far => true
      | _ => false
    if s.grid.down = true ∨ late = true then some { post := fun t => t = s }
    else if more = true ∨ seq ≠ f.next then some
      { need := f.held = [] ∧ seq < 65536 ∧ (seq + 65536 - f.next) % 65536 < 4096
        post := fun t => t = { s with inflows := kput s.inflows (src, core) { f with held := [(seq, ask)] } } }
    else some
      { need := f.held = [] ∧ seq < 65536 ∧ s.router.plog.ctl.getLsbD 5 = false
        post := fun t => kget? t.inflows (src, core) = some { f with next := (seq + 1) % 65536, held := [] } ∧
          (s.level ≠ 2 ∨ backed = false → MemSame s t ∧ t.out = s.out ++ toPackage s src (.faultResponse src core seq epoch 0x11 4) ∧
            t.router.plog.lost = true) ∧
          (s.level = 2 → backed = true → kind ≠ 1 → s.poisoned a z = true →
            MemSame s t ∧ t.out = s.out ++ toPackage s src (.faultResponse src core seq epoch 0x14 0) ∧ t.router.plog.lost = true) ∧
          (s.level = 2 → backed = true → kind = 0 → s.poisoned a z = false →
            MemSame s t ∧ t.out = s.out ++ toPackage s src (.response src core seq epoch old)) ∧
          (s.level = 2 → backed = true → kind = 1 →
            MemSameBut s t a z ∧ memBytes t.mem a z = data ∧ t.out = s.out ++ toPackage s src (.response src core seq epoch [])) ∧
          (s.level = 2 → backed = true → 2 ≤ kind → s.poisoned a z = false →
            MemSameBut s t a z ∧
            ofBytes (memBytes t.mem a z) = (((ask.update z).apply z (ofBytes old)).getD (ofBytes old)) % 2 ^ (8 * z) ∧
            t.out = s.out ++ toPackage s src (.response src core seq epoch (if kind = 3 then [] else old))) }
  | .peerResponse core dest seq epoch data =>
    if o.cmd.isSome then answered core dest seq epoch (fun x =>
      if o.kind = 0 then { x with answers := x.answers ++ [(o.pa, data)] } else { x with written := o.part :: x.written })
    else match p.kind with
    | .load _ _ conv dst => some
        { need := Asked s core dest seq epoch o w p
          post := fun t => taken core dest t ∧ (t.warp? o.key).map (·.pend) = some (w.pend.erase p) ∧ MemSame s t ∧
            ∀ l, (t.warp? o.key).bind (·.fibre? l) = (w.fibre? l).map (fun f =>
              if l = p.lane then f.fillEntries (dst.zip (conv.toWords (ofBytes data))) else f) }
    | .store _ _ => some
        { need := Asked s core dest seq epoch o w p
          post := fun t => taken core dest t ∧ MemSame s t ∧ (t.warp? o.key) = some { w with pend := w.pend.erase p } }
    | _ => none
  | .peerFaultResponse core dest seq epoch cause reason =>
    if o.cmd.isSome then answered core dest seq epoch (fun x => { x with refused := some o.pa })
    else match p.kind with
    | .load _ _ _ dst => some
        { need := Asked s core dest seq epoch o w p ∧ core ≠ hubCore ∧ (w.fibre? p.lane).isSome = true
          post := fun t => taken core dest t ∧ failed dst 0x16 reason false cause t }
    | _ => none
  | .peerTimeout core dest seq =>
    match p.kind with
    | .load _ _ _ dst => some
        { need := (∃ epoch, Asked s core dest seq epoch o w p ∧ o.epoch = epoch) ∧
            (s.flow core dest).open_.find? (fun o => o.seq == seq) = some o ∧ core ≠ hubCore ∧ (w.fibre? p.lane).isSome = true
          post := fun t => failed dst 0x17 0 (o.kind != 0) 0 t ∧
            (o.epoch = (s.flow core dest).epoch → t.flow core dest =
              { seq := 0, epoch := !(s.flow core dest).epoch, open_ := (s.flow core dest).open_.erase o }) }
    | _ => none
  | .pflogCtlWrite v =>
    let q := s.router.plog
    let legal : Bool := decide (4 ≤ v.toNat % 32 ∧ v.toNat % 32 ≤ 12) && decide (q.hi.toNat * 2 ^ 32 + q.lo.toNat < 2 ^ 43) &&
      s.backs (q.hi.toNat * 2 ^ 32 + q.lo.toNat) (32 * 2 ^ (v.toNat % 32))
    let after : PeerLog :=
      if q.ctl.getLsbD 5 then { q with ctl := (q.ctl &&& 0x1F) ||| (v &&& 0x20) }
      else if !v.getLsbD 5 then { q with ctl := v &&& 0x3F }
      else if legal then { q with ctl := v &&& 0x3F, prod := q.cons }
      else { q with ctl := v &&& 0x1F, cfgerr := true }
    some { post := fun t => t = { s with router := { s.router with plog := after } } }
  | _ => none
where
  /-- What a command's request was answered, in the command that made it (R370); one that has gone takes nothing. -/
  answered (core dest seq : Nat) (epoch : Bool) (fn : Command → Command) : Option Event :=
    o.cmd.bind fun n => (s.groupCore (s.groupKey o.key)).bind fun c => (nget? (s.core c).cmds n).map fun x =>
      { need := (s.flow core dest).open_.find? (fun o => o.seq == seq && o.epoch == epoch) = some o
        post := fun t => taken core dest t ∧ MemSame s t ∧ t.warps = s.warps ∧
          nget? (t.core c).cmds n = some (if x.key = o.key ∧ x.seq = o.num then fn x else x) }
  /-- The request is outstanding no more. -/
  taken (core dest : Nat) (t : State) : Prop := (t.flow core dest).open_ = (s.flow core dest).open_.erase o
  /-- The item is given up: its lane holds the access in the warp's operand log, and the cause behind those it has (R373). -/
  failed (dst : List Nat) (cause : BitVec 8) (reason : Nat) (indet : Bool) (code : Nat) (t : State) : Prop :=
    MemSame s t ∧ ∃ w' i e f, t.warp? o.key = some w' ∧ p ∉ w'.pend ∧ nget? w'.log i = some e ∧ p.lane ∈ e.mask ∧ w.fibre? p.lane = some f ∧
      (∀ l, l ≠ p.lane → w'.fibre? l = w.fibre? l) ∧
      w'.fibre? p.lane = some { f with causes := f.causes ++
        [{ cause := cause, reason := reason, indet := indet, info0 := BitVec.ofNat 32 (p.addrOf p.lane)
           info1 := BitVec.ofNat 32 (p.addrOf p.lane / 2 ^ 32 % 2 ^ 24 + code % 256 * 2 ^ 24)
           source := .access dst, log := some i }] }

/-! ### The hub (R375, R377 to R383) -/

/-- A name from a message's numbers. -/
def wireName (tensor tile iter : Nat) : Name := ⟨BitVec.ofNat 32 tensor, BitVec.ofNat 32 tile, BitVec.ofNat 32 iter⟩
/-- The faces that wait for a name. -/
def waiting (s : State) (n : Name) : List (Face × Nat) := (kget? s.router.pit n).getD []

/-- A fill ended unfinished: the tile is empty, and the fibre of the NAME.GET has the cause (R381). -/
def unfilled (s : State) (n : Name) (cause : BitVec 8) (reason : Nat) (k : WarpKey) (i : Nat) (t : State) : Prop :=
  ∀ w f, s.warp? k = some w → w.fibre? (w.tile i).lane = some f → ∃ w' f', t.warp? k = some w' ∧
      (w'.tile i).state = .empty ∧ (w'.tile i).image = [] ∧ (w'.tile i).cause = some (cause, reason) ∧ w'.fibre? (w.tile i).lane = some f' ∧
      ∃ c ∈ f'.causes, c.cause = cause ∧ c.reason = 0 ∧ c.source = .namedTile i ∧
        c.info0 = BitVec.ofNat 32 (i + reason * 16) ∧ c.info1 = n.tensor

/-- An interest of another package; a tile, an End and a Retire; the flush of the tile store; and NAMEREF. -/
def hubEvents (s : State) : Instr → Option Event
  | .interestMsg src tensor tile iter life =>
    let n := wireName tensor tile iter
    let f : Face := .package src
    let r := s.router
    let refused (t : State) (reason : Nat) : Prop := t.out = s.out ++ toPackage s src (.ended src n false reason) ∧ t.router.pit = r.pit
    some { post := fun t => MemSame s t ∧ t.warps = s.warps ∧
      if n ∈ r.retiredNames then t.router = r ∧ t.out = s.out ++ toPackage s src (.ended src n true 3)
      else match r.store.find? (fun x => x.name == n && x.served) with
        | some x => t.router = { r with store := r.store.filter (fun u => !(u.name == n && u.served)) ++ [x] } ∧
            t.out = s.out ++ toPackage s src (.tile src n x.tile false)
        | none => match kget? r.pit n with
          | some fs =>
            if fs.any (fun e => e.1 == f) then t.out = s.out ∧
              t.router = { r with pit := kput r.pit n (fs.map (fun e => if e.1 = f then (f, max e.2 (r.now + life)) else e)) }
            else if 16 ≤ fs.length then refused t 2 ∧ t.router.nameRef = min (2 ^ 32 - 1) (r.nameRef + 1)
            else t.out = s.out ∧ t.router = { r with pit := kput r.pit n (fs ++ [(f, r.now + life)]) }
          | none =>
            if 4096 ≤ r.pit.length then refused t 2 ∧ t.router.nameRef = min (2 ^ 32 - 1) (r.nameRef + 1)
            else match r.next n with
              | none => refused t 1 ∧ t.router = r
              | some q =>
                if q = s.domid then t.out = s.out ∧ t.router = { r with pit := kput r.pit n [(f, r.now + life)] }
                else if q ≤ 4607 ∧ q ∉ r.unreached then t.out = s.out ++ [.interest q n (life - 1)] ∧
                  t.router = { r with pit := kput r.pit n [(f, r.now + life)] }
                else refused t 1 ∧ t.router = r }
  | .tileMsg tensor tile iter control slot image up =>
    let n := wireName tensor tile iter
    let x : NamedTile := ⟨BitVec.ofNat 32 control, BitVec.ofNat 32 slot, image⟩
    let live := (waiting s n).filter (fun e => decide (s.router.now ≤ e.2))
    some { post := fun t => kget? t.router.pit n = none ∧ n ∉ t.router.retiredNames ∧
      (∀ m, m ≠ n → kget? t.router.pit m = kget? s.router.pit m) ∧
      (s.router.store.length < 16384 → storedBytes s.router.store + image.length ≤ 2 ^ 26 →
        ∃ e ∈ t.router.store, e.name = n ∧ e.tile = x ∧ e.served = true) ∧
      (∀ e ∈ t.router.store, e.name = n → e.served = true → e.tile = x) ∧
      (∀ q e, (.package q, e) ∈ live → ∀ m ∈ toPackage s q (.tile q n x false), m ∈ t.out) ∧
      (∀ k i e la w, (.consumer k i, e) ∈ live → s.launch? k.lid = some la → s.warp? k = some w → (s.coreOf k).isSome = true →
        (w.tile i).ctl.toNat / 8 % 2 ^ 16 = control / 8 % 2 ^ 16 →
        ((w.tile i).shape la).slot &&& 0xC0FFF = x.slot &&& 0xC0FFF →
        (t.warp? k).map (fun w' => ((w'.tile i).state, (w'.tile i).image)) = some (.ready, ((w.tile i).shape la).imgOf image)) ∧
      (up = true → ∀ q, s.router.next n = some q → q ≠ s.domid → ∀ m ∈ toPackage s q (.tile q n x true), m ∈ t.out) }
  | .endMsg tensor tile iter retired reason =>
    let n := wireName tensor tile iter
    some { post := fun t => ended n retired reason t ∧ t.router.store = s.router.store ∧ t.router.retiredNames = s.router.retiredNames }
  | .retireMsg tensor tile iter =>
    let n := wireName tensor tile iter
    match s.router.next n with
    | none => some { post := fun t => t = s }
    | some q =>
      if q = s.domid then some { post := fun t => ended n true 3 t ∧ n ∈ t.router.retiredNames ∧ t.router.retiredNames.length ≤ 1024 ∧
        (∀ u ∈ t.router.store, u.name = n → u.served = false ∧ u.pins ≠ []) ∧
        ∀ u ∈ s.router.store, u.name ≠ n → u.served = true → u ∈ t.router.store }
      else some { post := fun t => t = { s with out := s.out ++ toPackage s q (.retire q n) } }
  | .tsctlFlush => some { post := fun t => t = { s with router := { s.router with store := s.router.store.filter (fun u => !u.pins.isEmpty) } } }
  | .namerefRead => some { post := fun t => t = { s with router := { s.router with nameRef := 0 } } }
  | _ => none
where
  /-- Every face of a name ended. -/
  ended (n : Name) (retired : Bool) (reason : Nat) (t : State) : Prop :=
    kget? t.router.pit n = none ∧ (∀ m, m ≠ n → kget? t.router.pit m = kget? s.router.pit m) ∧
    (∀ q e, (.package q, e) ∈ waiting s n → ∀ m ∈ toPackage s q (.ended q n retired reason), m ∈ t.out) ∧
    ∀ k i e, (.consumer k i, e) ∈ waiting s n → unfilled s n (if retired then 0x31 else 0x30) reason k i t

/-- The faces whose expiry has passed are removed, and entries left with no face. A local one ends its consumer as NAME_EXPIRED
with reason 0; no message leaves the package (R379, R381). -/
def expiryEvents (s : State) : Instr → Option Event
  | .faceExpiry =>
    some { post := fun t => t.router.now = s.router.now + 1 ∧ t.router.store = s.router.store ∧ t.out = s.out ∧
      (∀ e ∈ t.router.pit, e.2 ≠ [] ∧ ∀ f ∈ e.2, s.router.now < f.2) ∧
      (∀ e ∈ s.router.pit, ∀ f ∈ e.2, s.router.now < f.2 → ∃ e' ∈ t.router.pit, e'.1 = e.1 ∧ f ∈ e'.2) ∧
      ∀ e ∈ s.router.pit, ∀ f ∈ e.2, f.2 ≤ s.router.now → ∀ k i, f.1 = .consumer k i → unfilled s e.1 0x30 0 k i t }
  | _ => none

/-! ### Drains (R355 to R358) -/

/-- A drain whose groups can all be stopped, one that must wait for them, of a package on a module (R1), the return of power, and the end of the hold time. -/
def drainEvents (s : State) : Instr → Option Event
  | .drain =>
    let stopping : State := { s with
      grid := { s.grid with draining := true }
      flash := nsetD s.flash 0 4 0
      ck := if s.ck.busy then { s.ck with busy := false, abandoned := true, pending := [], shards := [] } else s.ck }
    some { need := s.grid.drained = false ∧ (∀ i, i < 48 → (s.cluster i).retained = false) ∧ (s.groups.map (·.1)).Nodup ∧
             s.front.outcomes.length ≤ 1024 ∧ ∀ c ∈ s.cores, c.2.comb = [] ∧ c.2.cmds = []
           post := fun t =>
             (s.onModule = false → t = s) ∧
             (s.onModule = true → stopping.mayDrain = false → t = stopping) ∧
             (s.onModule = true → stopping.mayDrain = true →
               t.grid = { s.grid with drains := s.grid.drains + 1, valid := true, stale := false, draining := false, drained := true } ∧
               t.out = s.out ++ [.vector 10] ∧ MemSame s t ∧
               DrainLaid s t.flash (s.grid.drains + 1) ∧
               (∀ k q, s.group? k = some q → (∃ c, q.place = .resident c) → ∃ a n, (t.group? k).map (·.place) = some (.flash a n) ∧
                 (List.range n).map (fun i => ngetD t.flash 0 (a + i)) = pad256 (s.image k)) ∧
               (∀ d, (t.die d).tlb = []) ∧ (∀ c, (t.core c).l1 = [] ∧ (t.core c).code = []) ∧
               t.ck = stopping.ck) }
  | .powerReturn =>
    -- section 1 of the image, and a number of n bytes of it
    let number (o n : Nat) : Nat := ofBytes ((List.range n).map (fun i => ngetD s.flash 0 (o + i)))
    let front := number 0x88 8
    let out : Bool := s.groups.any (fun g => match g.2.place with
      | .flash _ _ => true
      | _ => false)
    some { post := fun t =>
      (s.grid.drained = false → t = s) ∧
      (s.grid.drained = true → s.grid.valid = false → t = { s with grid := { s.grid with drained := false } }) ∧
      (s.grid.drained = true → s.grid.valid = true → MemSame s t ∧ t.warps = s.warps ∧ t.groups.map (·.1) = s.groups.map (·.1) ∧
        (∀ i, i < 16 → (t.queue i).prod = BitVec.ofNat 32 (number (front + 8 * i) 4) ∧
          (t.queue i).cons = BitVec.ofNat 32 (number (front + 8 * i + 4) 4)) ∧
        (s.grid.draining = true ∨ out = true → t.grid = { s.grid with drained := false } ∧ t.out = s.out) ∧
        (s.grid.draining = false → out = false →
          t.grid = { s.grid with drained := false, valid := false, resumed := true } ∧ t.out = s.out ++ [.vector 10])) }
  | .holdExpiry => some { post := fun t =>
      (s.grid.draining = true → t.grid = { s.grid with valid := false, draining := false, drained := true } ∧ t.mem = [] ∧ t.launches = [] ∧
        t.groups = [] ∧ t.warps = [] ∧ t.out = s.out ++ (if s.grid.valid then [.vector 10] else []) ∧ t.flash = s.flash) ∧
      (s.grid.draining = false → (s.grid.drained = false ∨ s.grid.stale = true ∨ s.grid.valid = false) → t = s) ∧
      (s.grid.draining = false → s.grid.drained = true → s.grid.stale = false → s.grid.valid = true →
        t.grid = { s.grid with valid := false, stale := true } ∧ t.mem = [] ∧ t.launches = [] ∧ t.groups = [] ∧ t.warps = [] ∧
        t.out = s.out ++ [.vector 10] ∧ ngetD t.flash 0 4 = 2 ∧ ∀ a, a ≠ 4 → ngetD t.flash 0 a = ngetD s.flash 0 a) }
  | _ => none

/-! ### Checkpoints and restores (R388 to R392) -/

/-- Where the half of a step begins in an area. -/
def halfOf (k : Checkpoint) (area : DWord) : Nat := area.toNat + k.copyStep.toNat % 2 * (k.half * 65536)

/-- A copy that finishes or fails: of the shards that fit in the half, each after the one before, those that were written, and of the
local copy those that far memory backs; GO of a restore; and a restore. -/
def checkpointEvents (s : State) : Instr → Option Event
  | .checkpointCopyDone copy written =>
    let k := s.ck
    let local_ := halfOf k k.localArea
    let laid := layShards 0 (k.half * 65536) k.shards
    let done := if copy = 0 then laid.takeWhile (fun e => s.region (local_ + e.1) == .far && s.backs (local_ + e.1) e.2.length)
      else laid.take written
    let stat := if done.length < k.shards.length then k.stat ||| BitVec.ofNat 4 (2 ^ copy) else k.stat
    if copy ∉ k.pending then some { post := fun t => t = s }
    else some
      { need := k.busy = true
        post := fun t =>
          (k.pending.erase copy = [] → t.ck = { k with pending := [], busy := false, shards := [], stat := stat ||| 8 } ∧
            t.out.getLast? = some (.vector 6)) ∧
          (k.pending.erase copy ≠ [] → t.ck = { k with pending := k.pending.erase copy, stat := stat }) ∧
          (copy = 0 → (∀ e ∈ done, memBytes t.mem (local_ + e.1) e.2.length = e.2) ∧
            ∀ a, (∀ e ∈ done, a < local_ + e.1 ∨ local_ + e.1 + e.2.length ≤ a) → memByte t.mem a = memByte s.mem a) ∧
          (copy ≠ 0 → MemSame s t) ∧
          (copy = 1 → ∀ e ∈ done, .shard k.buddy (halfOf k k.remote + e.1) e.2 ∈ t.out) ∧
          (2 ≤ copy → ∀ e ∈ done, .fileShard (halfOf k k.peer + e.1) e.2 ∈ t.out) }
  | .restoreGo => some { post := fun t => t = { s with ck := { s.ck with rsBusy := true } } }
  | .restoreComplete buddy peer =>
    let raw := (if s.ck.rsSrc.getLsbD 0 then s.localShards else []) ++ (if s.ck.rsSrc.getLsbD 1 then buddy else []) ++
      (if s.ck.rsSrc.getLsbD 2 then peer else [])
    let found := (raw.filterMap Shard.parse).filter (fun x => x.job == s.ck.rsJob.toNat)
    let closed (t : State) (stat : Nat) : Prop := t.ck.rsBusy = false ∧ t.ck.rsStat = BitVec.ofNat 32 stat ∧ t.out.getLast? = some (.vector 7)
    some { post := fun t =>
      (s.ck.rsBusy = false ∨ s.grid.down = true → t = s) ∧
      (s.ck.rsBusy = true → s.grid.down = false →
        (bestSet found = none → closed t 2 ∧ t.ck.rsStep = s.ck.rsStep ∧ MemSame s t ∧ t.launches = s.launches) ∧
        ∀ m rest, bestSet found = some (m :: rest) →
          let r := LaunchRec.parse (m.payload.take 128)
          (∀ code, Refused s r code → closed t (3 + code * 256) ∧ t.ck.rsStep = s.ck.rsStep ∧ MemSame s t ∧ t.launches = s.launches) ∧
          (Accepted s r → closed t 1 ∧ t.ck.rsStep = BitVec.ofNat 32 m.step ∧
            (t.launch? r.lid).map (fun la => (la.record, la.stage, la.stepNo, la.placed)) =
              some (r, .running, BitVec.ofNat 32 m.step, (t.launch? r.lid).elim 0 (·.gangs)) ∧
            ∀ a, (∀ x ∈ m :: rest, x.kind = 2 → a < x.addr ∨ x.addr + x.payload.length ≤ a) → memByte t.mem a = memByte s.mem a)) }
  | _ => none

/-! ### Trust and bring-up (R5, R387, R393 to R395) -/

/-- MEASk after it is extended with a digest: SHA-512 of its 64 bytes followed by the digest. -/
def extended (b : Boot) (k : Nat) (digest : List Byte) : NMap (BitVec 512) :=
  nsetD b.meas 0 k (BitVec.ofNat 512 (ofBytes (sha512 (bytesOf 64 (ngetD b.meas 0 k).toNat ++ digest))))

/-- A stage of boot, a service level, module reset, measurements, quotes and the in-field test. -/
def trustEvents (s : State) : Instr → Option Event
  | .bootStage stage key sig image trained tested =>
    let b := s.boot
    let measured : Boot := { b with meas := extended b stage (sha512 image), ran := stage :: b.ran }
    let error (b : Boot) (code : Nat) : State := told { s with boot := { b with err := code, errStage := stage } } (.vector 0)
    if b.err ≠ 0 ∨ stage ∈ b.ran ∨ 4 < stage then some { post := fun t => t = s }
    else some { post := fun t =>
      (3 ≤ stage → t = { s with boot := measured }) ∧
      (stage < 3 → keyState key = .revoked → t = error b 2) ∧
      (stage < 3 → (keyState key = .unknown ∨ (keyState key = .accepted ∧ edVerify key (sha512 image) sig = false)) → t = error b 1) ∧
      (stage < 3 → keyState key = .accepted → edVerify key (sha512 image) sig = true →
        t = (if trained = false then error measured 3 else if tested = false then error measured 4 else { s with boot := measured })) }
  | .serviceLevelChange => some { post := fun t =>
      (s.boot.err ≠ 0 ∨ s.grid.down = true → t = s) ∧
      (s.boot.err = 0 → s.grid.down = false →
        (s.level = 0 → ¬ (0 ∈ s.boot.ran ∧ 1 ∈ s.boot.ran ∧ 2 ∈ s.boot.ran) → t = s) ∧
        (s.level = 0 → 0 ∈ s.boot.ran → 1 ∈ s.boot.ran → 2 ∈ s.boot.ran → t.level = 1 ∧ t.out = s.out ++ [.vector 0] ∧ MemSame s t ∧
          t.warps = s.warps ∧ t.boot = s.boot ∧ (s.movingToS2 = false → (∃ u, u < 32 ∧ u ∉ s.unitsOut (.channel 0)) → ∀ b ∈ List.range 4096, (t.bucket (.channel 0) b).unit ∉ t.unitsOut (.channel 0))) ∧
        (s.level = 1 → (s.evacuating (.channel 0)).isSome = true → t = s) ∧
        (s.level = 1 → s.evacuating (.channel 0) = none → s.movingToS2 = true →
          t = told { s with movingToS2 := false, level := 2 } (.vector 0)) ∧
        (s.level = 1 → s.evacuating (.channel 0) = none → s.movingToS2 = false → t.level = 1 ∧ t.movingToS2 = true ∧ MemSame s t) ∧
        (2 ≤ s.level → t = s)) }
  | .powerGood => some { post := fun t => t.level = 0 ∧ t.domid = s.domid ∧ t.onModule = s.onModule ∧ t.retirementMap = s.retirementMap ∧ t.flash = s.flash ∧
      t.warps = [] ∧ t.launches = [] ∧ t.groups = [] ∧ t.boot = State.reset.boot ∧ t.grid = State.reset.grid ∧
      t.front = State.reset.front ∧ t.clusters = State.reset.clusters ∧
      (s.retirementMap = [] → t.cores = State.reset.cores ∧ t.dies = State.reset.dies ∧ t.mem = State.reset.mem) }
  | .measExtend v =>
    let k := if v.getLsbD 1 then 7 else 6
    some { post := fun t => t = if v.getLsbD 0 then { s with boot := { s.boot with meas := extended s.boot k (bytesOf 64 s.boot.mextBuf.toNat) } } else s }
  | .quoteRequest => some { post := fun t =>
      t = if s.boot.atBusy then s else
        { s with boot := { s.boot with atBusy := true, building := s.quote (bytesOf 32 s.boot.atNonce.toNat) s.boot.atSel.toNat } } }
  | .quoteComplete => some { post := fun t =>
      t = if s.boot.atBusy then { s with boot := { s.boot with atBusy := false, quote := s.boot.building, building := [] } } else s }
  | .maarQuoteRequest nonce sel => some { post := fun t => t = { s with out := s.out ++ [.quote (s.quote nonce sel.toNat)] } }
  | .iftGo v =>
    let b := s.boot
    let named : Boot := { b with iftDie := v.toNat / 2 ^ 16 % 4, iftCluster := v.toNat % 16 }
    let i := 12 * (v.toNat / 2 ^ 16 % 4) + v.toNat % 16
    let fails (status : Nat) : State := told { s with boot := { named with iftStat := status } } (.vector 8)
    let verified (p : List Byte) : Bool := signedOk (p.take 32) ((p.drop 32).take 64) (p.drop 96)
    some { post := fun t =>
      (b.iftStat = 1 → t = s) ∧
      (b.iftStat ≠ 1 → v.getLsbD 31 = false → t = { s with boot := named }) ∧
      (b.iftStat ≠ 1 → v.getLsbD 31 = true →
        (11 < v.toNat % 16 → t = fails 6) ∧
        (v.toNat % 16 ≤ 11 → s.testPackage = none → t = fails 4) ∧
        ∀ p, v.toNat % 16 ≤ 11 → s.testPackage = some p →
          (verified p = false → t = fails 4) ∧
          (verified p = true → 1 ≤ s.grid.stage → t.boot.iftStat = 5 ∧ (t.cluster i).testing = false ∧ MemSame s t ∧ t.warps = s.warps) ∧
          (verified p = true → s.grid.stage = 0 → t.boot = { named with iftStat := 1, iftDigest := sha512 (p.drop 96) } ∧
            t.cluster i = { s.cluster i with testing := true } ∧ t.out = s.out ++ [.vector 8] ∧ MemSame s t ∧ t.warps = s.warps ∧
            ∀ c, c < 32 → ∀ g ∈ s.groupsOn (32 * i + c), (∃ la, s.launch? g.lid = some la ∧ g.g ∈ la.gangGroups (la.gangOf g.g)) →
              (t.group? g).map (·.stopping) = some true)) }
  | .iftComplete failed aborted =>
    let i := s.boot.testCluster
    let empty : Bool := (List.range 32).all (fun c => (s.groupsOn (32 * i + c)).isEmpty)
    let real := failed.filter (fun e => decide (e.1 < 32 ∧ e.2.1 < 4 ∧ e.2.2 < (if e.2.1 = 3 then 16 else 32)))
    some { post := fun t =>
      (s.boot.iftStat ≠ 1 → t = s) ∧
      (s.boot.iftStat = 1 → aborted = false → empty = false → t = s) ∧
      (s.boot.iftStat = 1 → aborted = true → s.grid.stage = 0 → t = s) ∧
      (s.boot.iftStat = 1 → (aborted = true ∧ 1 ≤ s.grid.stage) ∨ (aborted = false ∧ empty = true) →
        (t.cluster i).testing = false ∧ t.out.getLast? = some (.vector 8) ∧ MemSame s t ∧
        t.boot = { s.boot with iftStat := (if aborted then 5 else if real = [] then 2 else 3)
                               meas := if empty then extended s.boot 5 s.boot.iftDigest else s.boot.meas } ∧
        (aborted = false → ∀ e ∈ real, (t.core (32 * i + e.1)).isRetired e.2.1 e.2.2 = true ∨
          (¬ (s.retirements = [] ∧ s.retiring = none) ∧ .unit (32 * i + e.1) e.2.1 e.2.2 ∈ t.retirements))) }
  | _ => none

/-! ### The host and the control region (R385, R386) -/

/-- REGISTER_WRITE: one that is not aligned, or that falls on half of a 64-bit register, is ignored; a store and a load of the host
in package memory and in the control window; and the table and pending bits of the MSI-X window. -/
def hostEvents (s : State) : Instr → Option Event
  | .registerWrite off v =>
    if off % 4 ≠ 0 ∨ (s.reg64 (off / 8 * 8)).isSome = true then some { post := fun t => t = s }
    else (plainWrite s off v).map fun u => { post := fun t => t = u }
  | .hostWindowAccess window off size store data =>
    let a := s.boot.winBase.toNat + off
    let memory : Prop := window = 1 ∧ off < 2 ^ 36 ∧ (size = 1 ∨ size = 2 ∨ size = 4 ∨ size = 8 ∨ size = 16) ∧ off % size = 0 ∧
      s.backs a size = true ∧ ¬ (0x70000000000 ≤ a ∧ a < 2 ^ 43)
    some { post := fun t =>
      (s.grid.down = true → t = s) ∧
      (s.grid.down = false → memory →
        (store = true → memBytes t.mem a size = bytesOf size data.toNat ∧ MemSameBut s t a size ∧ t.out = s.out) ∧
        (store = false → s.poisoned a size = false →
          t = { s with out := s.out ++ [.hostData (BitVec.ofNat 128 (ofBytes (memBytes s.mem a size)))] })) ∧
      (s.grid.down = false → window = 0 → off % 4 = 0 → size = 4 → store = true → s.reg64 (off / 8 * 8) = none → off < 0x4000000 →
        ∀ u, plainWrite s off (BitVec.ofNat 32 (data.toNat % 2 ^ 32)) = some u → t = u) ∧
      (s.grid.down = false → window = 0 → size = 4 → store = false → wordRegister s off → off < 0x4000000 →
        ∀ v, plainRead s off = some v → t = { s with out := s.out ++ [.hostData (BitVec.ofNat 128 (v % 2 ^ 32))] }) ∧
      (s.grid.down = false → window = 2 → size = 4 → off % 4 = 0 → off < 256 →
        let x := ngetD s.host.table (BitVec.ofNat 128 (2 ^ 96)) (off / 16)
        (store = false → t = { s with out := s.out ++ [.hostData ((x >>> (8 * (off % 16))) &&& 0xFFFFFFFF)] }) ∧
        (store = true → off % 16 = 12 → t = { s with host := { s.host with
          table := nput s.host.table (off / 16) ((BitVec.ofBool (data.getLsbD 0) ++ x.setWidth 96).setWidth 128)
          pending := if data.getLsbD 0 then s.host.pending else s.host.pending &&& ~~~(BitVec.ofNat 16 (2 ^ (off / 16))) } })) }
  | _ => none

/-! ### Entering a clause (R49 to R53) -/

/-- The set of the issue in hand enters the header at H when the checks of R51 pass: every fibre of it stands at the word after,
and the warp waits for the header's conditions; else each fibre takes RESERVED_FIELD or ILLEGAL_CLAUSE at the header. -/
def clauseEvents (s : State) (iss : Issue) (w : Warp) (la : Launch) (h hw : Word) (body : List Word) : Instr → Option Event
  | .clauseEntry =>
    let standing : Prop := s.issue = some iss ∧ s.warp? iss.key = some w ∧ w.spec = none ∧ s.launch? iss.key.lid = some la ∧
      (∃ l f, iss.sel.lanes.head? = some l ∧ w.fibre? l = some f ∧ f.inside = false ∧ f.pc = h) ∧
      (s.fetchClause (s.coreNo iss.key) la w h).2 = .inr (hw, body)
    if hw.toNat / 2 ^ 15 ≠ 0 ∨ hw.toNat % 16 = 0 ∨ wordsOk (hw.toNat / 2 ^ 4 % 4) body = false then some
      { need := standing ∧ la.hdlr = true ∧ iss.sel.lanes.Nodup ∧ ∀ l ∈ iss.sel.lanes, ∃ f, w.fibre? l = some f ∧ f.handler = false
        post := fun t => MemSame s t ∧ ∃ w', t.warp? iss.key = some w' ∧ w'.retired = w.retired ∧ ∀ l, w'.fibre? l = (w.fibre? l).map (fun f =>
          if l ∈ iss.sel.lanes then
            { f with handler := true, pc := la.record.handler, hdr := la.record.handler, inside := false, body := [], refetch := false
                     tr := { cause := if hw.toNat / 2 ^ 15 ≠ 0 then 3 else 2, info0 := hw, info1 := 0, pc := h, hdr := h } }
          else f) }
    else some
      { need := standing ∧ (la.det = true → hw.getLsbD 6 = true → w.yielded = true) ∧ (s.core (s.coreNo iss.key)).comb = []
        post := fun t => MemSame s t ∧ ∃ w', t.warp? iss.key = some w' ∧ w'.retired = w.retired ∧ w'.sel = some iss.sel ∧
          w'.mask.toNat = hw.toNat / 2 ^ 8 % 2 ^ 7 * 2 ^ 8 ∧ (hw.getLsbD 7 = true → w'.loop = some (h, hw :: body)) ∧
          (hw.getLsbD 7 = false → w'.loop = w.loop) ∧
          ∀ l, w'.fibre? l = (w.fibre? l).map (fun f => if l ∈ iss.sel.lanes then
            { f with pc := h + 1, hdr := h, inside := true, body := body, hword := hw, refetch := false } else f) }
  | _ => none

/-! ## What the special functions approximate (R112, R113) -/

/-- The size of the FP32 number of code `c`, whatever its sign; the code of infinity stands for 2^128, past the last number. -/
def single (c : Nat) : ℚ :=
  let x := c % 2 ^ 31
  let m : Nat := if x / 2 ^ 23 = 0 then x else 2 ^ 23 + x % 2 ^ 23
  let e : Nat := if x / 2 ^ 23 = 0 then 1 else x / 2 ^ 23
  (m : ℚ) * (2 : ℚ) ^ ((e : Int) - 150)
/-- The number of a finite code. -/
def number (c : Nat) : ℚ := if c / 2 ^ 31 % 2 = 1 then -single c else single c
/-- A code of a finite number that is not zero. -/
def Ordinary (x : Word) : Prop := 0 < x.toNat % 2 ^ 31 ∧ x.toNat % 2 ^ 31 < 0x7F800000

/-- R113: `r` is `y` where FP32 has `y`; otherwise `r` is one of the two numbers next to `y`, of the sign of `y`: the `n`th size is
the last one below `y`, and above the last of all stands infinity. -/
def FaithfulTo (r : Nat) (y : ℝ) : Prop :=
  r < 2 ^ 32 ∧ (y < 0 ↔ r / 2 ^ 31 = 1) ∧
  ((r % 2 ^ 31 < 0x7F800000 ∧ |y| = single r) ∨
    ((∀ n, n < 0x7F800000 → |y| ≠ single n) ∧
      ∃ n, n < 0x7F800000 ∧ (single n : ℝ) < |y| ∧ (n + 1 < 0x7F800000 → |y| < single (n + 1)) ∧
        (r % 2 ^ 31 = n ∨ r % 2 ^ 31 = n + 1)))

/-- The finite number nearest to a `y` that is not negative, the even one of two that are as near. -/
def NearestTo (r : Nat) (y : ℝ) : Prop :=
  r < 0x7F800000 ∧ ∀ n, n < 0x7F800000 → |y - single r| ≤ |y - single n| ∧ (n ≠ r → |y - single r| = |y - single n| → r % 2 = 0)

/-- The special inputs of R112's table: an input and the results of the functions that name it. Every NaN gives 0x7FC00000, and
so does a root or a logarithm of a number below zero. -/
def SpecialInputs : Prop :=
  (frcp 0 = 0x7F800000 ∧ frcp 0x80000000 = 0xFF800000 ∧ frcp 0x7F800000 = 0 ∧ frcp 0xFF800000 = 0x80000000) ∧
  (frsq 0 = 0x7F800000 ∧ frsq 0x80000000 = 0xFF800000 ∧ frsq 0x7F800000 = 0) ∧
  (fsqrt 0 = 0 ∧ fsqrt 0x80000000 = 0x80000000 ∧ fsqrt 0x7F800000 = 0x7F800000) ∧
  (fex2 0 = 0x3F800000 ∧ fex2 0x80000000 = 0x3F800000 ∧ fex2 0xFF800000 = 0 ∧ fex2 0x7F800000 = 0x7F800000) ∧
  (flg2 0 = 0xFF800000 ∧ flg2 0x80000000 = 0xFF800000 ∧ flg2 0x7F800000 = 0x7F800000) ∧
  (fsin 0 = 0 ∧ fsin 0x80000000 = 0x80000000 ∧ fsin 0x7F800000 = 0x7FC00000 ∧ fsin 0xFF800000 = 0x7FC00000) ∧
  (fcos 0 = 0x3F800000 ∧ fcos 0x80000000 = 0x3F800000 ∧ fcos 0x7F800000 = 0x7FC00000 ∧ fcos 0xFF800000 = 0x7FC00000) ∧
  (ftanh 0 = 0 ∧ ftanh 0x80000000 = 0x80000000 ∧ ftanh 0x7F800000 = 0x3F800000 ∧ ftanh 0xFF800000 = 0xBF800000) ∧
  (∀ x : Word, 0x7F800000 < x.toNat % 2 ^ 31 → ∀ op ∈ [frcp, frsq, fsqrt, fex2, flg2, fsin, fcos, ftanh], op x = 0x7FC00000) ∧
  ∀ x : Word, 0x80000000 < x.toNat → x.toNat ≤ 0xFF800000 → ∀ op ∈ [frsq, fsqrt, flg2], op x = 0x7FC00000

/-! ## The issue checks of engine commands (R294 to R298, R302, R304 to R306, R313) -/

/-- A check: the cause, its reason and the two information words of the trap, and when it fails. -/
structure Check where
  cause : Nat
  info0 : Word
  info1 : Word := 0
  reason : Nat := 0
  fails : Prop

/-- Fields of a parameter block, as one little-endian number (R296). -/
def blockField (raw at_ width : Nat) : Nat := raw / 2 ^ at_ % 2 ^ width
def boundOf (raw l : Nat) : Nat := blockField raw (64 + 64 * l) 16
def stepsOf (raw at_ : Nat) : List Int := (List.range 5).map fun l => (BitVec.ofNat 24 (blockField raw (at_ + 64 * l) 24)).toInt
def steps0 (raw : Nat) : List Int := stepsOf raw 80
def steps1 (raw : Nat) : List Int := stepsOf raw 104
def base0 (raw : Nat) : Int := blockField raw 384 64
def base1 (raw : Nat) : Int := blockField raw 448 64
def miscOf (raw : Nat) : Int := blockField raw 40 24
/-- The sum of every index with its step, at iteration vector number `n`, level 0 fastest. -/
def offsetAt (raw : Nat) (steps : List Int) (n : Nat) : Int :=
  ((List.range 5).map fun l => ((n / ((List.range l).map (boundOf raw)).prod % boundOf raw l : Nat) : Int) * steps.getD l 0).sum
/-- The number of iteration vectors. -/
def vectors (raw : Nat) : Nat := ((List.range 5).map (boundOf raw)).prod
/-- The bytes from the first to past the last that elements of `z` bytes from a base touch (R309). -/
def extent (raw : Nat) (base : Int) (steps : List Int) (z : Nat) : Int × Int :=
  let far (l : Nat) : Int := ((boundOf raw l : Int) - 1) * steps.getD l 0
  (base + ((List.range 5).map (fun l => min 0 (far l))).sum, base + ((List.range 5).map (fun l => max 0 (far l))).sum + z)

/-- R296: the block's own checks; `unused` says that a field that the command has no use for is not zero (R298). -/
def blockChecks (s : State) (iss : Issue) (w : Warp) (sp : Reg) (raw : Nat) (unused : Prop) : List Check :=
  let o : BarOp := ⟨.core, Fin.ofNat 16 (blockField raw 24 4)⟩
  [{ cause := 0x12, info0 := w.sval sp, fails := (w.sval sp).toNat % 64 ≠ 0 },
   { cause := 0x11, reason := 4, info0 := w.sval sp, fails := s.scratchSize iss.key < (w.sval sp).toNat + 64 },
   { cause := 0x03, info0 := iss.w0, info1 := if iss.len = 2 then iss.w1 else 0,
     fails := blockField raw 28 3 ≠ 0 ∨ blockField raw 35 5 ≠ 0 ∨ 4 < blockField raw 32 3 ∨ (∃ l, l < 5 ∧ boundOf raw l = 0) ∨
       (blockField raw 31 1 = 0 ∧ blockField raw 24 4 ≠ 0) ∨ unused },
   { cause := 0x25, info0 := BitVec.ofNat 32 (o.scope.code * 32 + o.index.val),
     fails := blockField raw 31 1 = 1 ∧ s.mayAddress iss.key o = none }]

/-- A check of tiles: the first of a list that breaks the rule is named (R313). -/
def tileCheck (cause : Nat) (l : List Nat) (bad : Nat → Prop) [DecidablePred bad] (info : Nat → Nat := id) : Check :=
  { cause := cause, info0 := BitVec.ofNat 32 (((l.find? (fun t => decide (bad t))).map info).getD 0), fails := ∃ t ∈ l, bad t }
/-- The shape of a tile of the warp. -/
def shapeIn (s : State) (iss : Issue) (w : Warp) (t : Nat) : Shape := s.tileShape iss.key (w.tile t)
/-- FORMAT_SLOT, then TILE_STATE, for configured tiles whose slot is not usable, and for tiles that are not configured. -/
def slotChecks (s : State) (iss : Issue) (w : Warp) (l : List Nat) : List Check :=
  [tileCheck 0x22 l (fun t => (w.tile t).cfg = true ∧ slotUsable s.level (shapeIn s iss w t).slot = false) (fun t => ctlSlot (w.tile t).ctl),
   tileCheck 0x20 l (fun t => (w.tile t).cfg = false)]
/-- A value in both information words. -/
def valueCheck (cause reason : Nat) (v : Int) (fails : Prop) : Check :=
  { cause := cause, reason := reason, info0 := BitVec.ofInt 32 v, info1 := BitVec.ofInt 32 (v / 2 ^ 32), fails := fails }
/-- ALIGNMENT: the first value of a list that is no multiple of its factor. -/
def multipleChecks (l : List (Int × Nat)) : List Check := l.map fun e => valueCheck 0x12 0 e.1 (e.1 % (e.2 : Int) ≠ 0)
/-- ACCESS_FAULT: a box of memory past 2^56, or of scratch outside the allotment (reason 4). -/
def boxCheck (s : State) (iss : Issue) (e : Endpoint) (base : Int) (box : Int × Int) : Check :=
  valueCheck 0x11 (if e = .scratch then 4 else 0) base (match e with
    | .memory => box.1 < 0 ∨ 2 ^ 56 < box.2
    | .scratch => box.1 < 0 ∨ s.scratchSize iss.key < box.2
    | .tile => False)

/-- MMA (R302): its sequences take, at each vector, an A tile and a B tile, each beside the first of its sequence. The state of a tile
that cannot be read comes after the shapes (log entry 158). -/
def mmaChecks (s : State) (iss : Issue) (w : Warp) (sp : Reg) (ta tb : TileReg) (slot : Fin 8) (opens : Bool) : List Check :=
  let raw := s.scratchVal (s.groupKey iss.key) (w.sval sp).toNat 64
  let tiles : List (Nat × Nat) := (List.range (vectors raw)).flatMap fun n =>
    [(((ta.val + offsetAt raw (steps0 raw) n) % 16).toNat, ta.val), (((tb.val + offsetAt raw (steps1 raw) n) % 16).toNat, tb.val)]
  let all := tiles.map (·.1)
  let h := shapeIn s iss w
  let kOf (t : Nat) : Nat := match slotBase (h t).slot with
    | 1 | 2 => 16
    | 6 => 64
    | _ => 32
  let differ := tiles.filter fun e => (h e.1).rows ≠ (h e.2).rows ∨ (h e.1).cols ≠ (h e.2).cols
  blockChecks s iss w sp raw (base0 raw ≠ 0 ∨ base1 raw ≠ 0 ∨ miscOf raw ≠ 0) ++ slotChecks s iss w all ++
  [tileCheck 0x21 (differ.map (·.1)) (fun _ => True),
   tileCheck 0x21 [ta.val, tb.val] (fun t => 64 < (h t).rows),
   tileCheck 0x21 [tb.val] (fun t => (h t).cols ≠ (h ta.val).cols),
   tileCheck 0x21 all (fun t => slotBase (h t).slot = 0),
   tileCheck 0x21 [tb.val] (fun _ => ∃ t ∈ all, kOf t ≠ kOf ta.val),
   tileCheck 0x20 all (fun t => (w.tile t).state = .empty ∨ (w.tile t).state = .draining),
   { cause := 0x20, info0 := BitVec.ofNat 32 (slot.val + 16), fails := ∃ gr, s.group? (s.groupKey iss.key) = some gr ∧
       (s.accs iss.key ≤ slot.val ∨ (if opens then gr.head ≠ slot.val else (gr.slot slot.val).state ≠ .opened)) }]

/-- EPI (R304). Where its bounds stand among the checks is the model's choice (log entry 157). -/
def epiChecks (s : State) (iss : Issue) (w : Warp) (sp : Reg) (t : TileReg) (dst : Endpoint) (fslot : Fin 8) (vec : Bool) : List Check :=
  let raw := s.scratchVal (s.groupKey iss.key) (w.sval sp).toNat 64
  let fs := ((s.launch? iss.key.lid).map (·.slot fslot.val)).getD 0
  let h := shapeIn s iss w t.val
  let z : Nat := if dst = .tile then 1 else if slotBase fs = 0 then 4 else if slotBase fs ∈ [1, 2] then 2 else 1
  let flat : Prop := ∃ l, 2 ≤ l ∧ l < 5 ∧ boundOf raw l ≠ 1
  blockChecks s iss w sp raw (miscOf raw ≠ 0 ∨ (∃ v ∈ steps1 raw, v ≠ 0) ∨ (∃ v ∈ (steps0 raw).drop 2, v ≠ 0) ∨ (vec = false ∧ base1 raw ≠ 0) ∨
    (if dst = .tile then base0 raw ≠ 0 ∨ ∃ v ∈ steps0 raw, v ≠ 0 else 64 < boundOf raw 0 ∨ 64 < boundOf raw 1 ∨ flat)) ++
  (if dst = .tile then slotChecks s iss w [t.val] ++
      [tileCheck 0x21 [t.val] (fun _ => 64 < h.rows ∨ 64 < h.cols),
       { cause := 0x03, info0 := iss.w0, info1 := if iss.len = 2 then iss.w1 else 0
         fails := boundOf raw 0 ≠ h.cols ∨ boundOf raw 1 ≠ h.rows ∨ flat },
       tileCheck 0x20 [t.val] (fun t => (w.tile t).state = .draining)]
    else
      [{ cause := 0x22, info0 := BitVec.ofNat 32 fslot.val, fails := slotUsable s.level fs = false },
       { cause := 0x21, info0 := BitVec.ofNat 32 (fslot.val + 32), fails := slotBsz fs ≠ 0 }]) ++
  [{ cause := 0x20, info0 := 16, fails := s.accs iss.key = 0 }] ++
  multipleChecks [(base0 raw, z), (base1 raw, if vec then 4 else 1), ((steps0 raw).getD 0 0, z), ((steps0 raw).getD 1 0, z)] ++
  [boxCheck s iss dst (base0 raw) (extent raw (base0 raw) (steps0 raw) z)] ++
  (if vec then [boxCheck s iss .scratch (base1 raw) (base1 raw, base1 raw + 1024)] else [])

/-- COPY (R305, R306). -/
def copyChecks (s : State) (iss : Issue) (w : Warp) (sp : Reg) (t : TileReg) (src dst : Endpoint) (mode : CopyMode) (esz : Fin 8) :
    List Check :=
  let raw := s.scratchVal (s.groupKey iss.key) (w.sval sp).toNat 64
  let h := shapeIn s iss w t.val
  let z : Nat := 2 ^ esz.val
  let apart : Prop := (src = .tile ∨ dst = .tile) ∧ (w.tile t.val).cfg = true ∧ slotSloc h.slot = 1
  let indexed (ix other : List Int) : Prop := (∃ v ∈ ix.take 4, v ≠ 0) ∨ boundOf raw 4 ≠ 1 ∨ other.getD 4 0 ≠ 0 ∨ ix.getD 4 0 < 1
  let from_ := if mode = .gather then (base0 raw, base0 raw + (steps0 raw).getD 4 0 * z) else extent raw (base0 raw) (steps0 raw) z
  let to_ := if mode = .scatter then (base1 raw, base1 raw + (steps1 raw).getD 4 0 * z) else extent raw (base1 raw) (steps1 raw) z
  let box := if src = .tile then from_ else to_
  blockChecks s iss w sp raw (match mode with
    | .strided => miscOf raw ≠ 0 ∧ ¬ apart
    | .gather => indexed (steps0 raw) (steps1 raw)
    | .scatter => indexed (steps1 raw) (steps0 raw)) ++
  (if src = .tile ∨ dst = .tile then slotChecks s iss w [t.val] ++
      [{ cause := 0x21, info0 := BitVec.ofNat 32 t.val, fails := (mode ≠ .strided ∧ apart) ∨ box.1 < 0 ∨ h.imageSize < box.2 },
       tileCheck 0x20 [t.val] (fun t => (src = .tile ∧ (w.tile t).state = .empty) ∨ (w.tile t).state = .draining)]
    else []) ++
  multipleChecks ([(base0 raw, z), (base1 raw, z)] ++ (if mode = .gather then [] else (steps0 raw).map (·, z)) ++
    (if mode = .scatter then [] else (steps1 raw).map (·, z))) ++
  [boxCheck s iss src (base0 raw) from_, boxCheck s iss dst (base1 raw) to_,
   { boxCheck s iss .scratch (miscOf raw) (miscOf raw, miscOf raw + (if mode = .strided then h.scaleSize else 4 * vectors raw)) with
     fails := (mode ≠ .strided ∨ apart) ∧ s.scratchSize iss.key < miscOf raw + (if mode = .strided then h.scaleSize else 4 * vectors raw) }]

/-- The checks of a command, in their order. -/
def issueChecks (s : State) (iss : Issue) (w : Warp) : Instr → Option (Guard × List Check)
  | .mma g sp ta tb slot opn _ _ => some (g, mmaChecks s iss w sp ta tb slot opn)
  | .epi g sp t dst _ fslot rsc csc rbi cbi _ => some (g, epiChecks s iss w sp t dst fslot (rsc || csc || rbi || cbi))
  | .copy g sp t src dst mode esz _ => some (g, copyChecks s iss w sp t src dst mode esz)
  | _ => none

/-- The first check that fails decides the trap; when none fails, the command has its plan. -/
def ChecksDecide : Prop :=
  ∀ s iss w i g l, issueChecks s iss w i = some (g, l) →
    (∀ before c after, l = before ++ c :: after → c.fails → (∀ d ∈ before, ¬ d.fails) → ∃ t,
      planned s iss w g i = some (.error t) ∧ t.word.toNat = c.cause + 2 ^ 9 * c.reason ∧ t.info0 = c.info0 ∧ t.info1 = c.info1) ∧
    ((∀ c ∈ l, ¬ c.fails) → ∃ p, planned s iss w g i = some (.ok p))

/-! ## The whole machine -/

/-- A step of an agent other than a warp, and the entry of a clause: it is no word of a clause. -/
def agentStep : Instr → Bool
  | .longLatencyWriteback .. | .steeringAdoption .. | .domainBarrierArrival .. | .domainBarrierCompletion ..
  | .launchRecordRead .. | .qctlWrite .. | .detlidWrite .. | .viollidWrite .. | .admviolRead .. | .regGrowGrant ..
  | .stallSwapOut .. | .stepBoundary .. | .checkpointCopyDone .. | .bankroleWrite .. | .unitRetirement ..
  | .evacuationLineCopy .. | .unitFailed .. | .pageWalk .. | .tlbiGo .. | .leaseRecall .. | .fenceResolve ..
  | .speculativeRollback .. | .detAtomicApply .. | .storeGateRelease .. | .icinvComplete .. | .commandAdmission ..
  | .engineStop .. | .engineEnd .. | .columnResidueMismatch .. | .mmaCompletion .. | .epiCompletion ..
  | .copyCompletion .. | .tcvtCompletion .. | .faultRecordPost .. | .fqctlWrite .. | .fqrespResume ..
  | .fqrespDeliver .. | .fqrespEnd .. | .serviceSwapOut .. | .swapreq .. | .swapOut .. | .droopReport .. | .selfTest ..
  | .fictlWrite .. | .telemetryFrame .. | .stepFrame .. | .gridConfigWrite .. | .throttleInterval ..
  | .laneGroupRetention .. | .clusterRetentionEntry .. | .clusterWake .. | .cretmissRead .. | .peerRequest ..
  | .peerResponse .. | .peerFaultResponse .. | .peerTimeout .. | .pflogCtlWrite .. | .interestMsg .. | .tileMsg ..
  | .endMsg .. | .retireMsg .. | .restoreComplete .. | .measExtend .. | .maarQuoteRequest .. | .iftGo ..
  | .iftComplete .. | .bootStage .. | .hostWindowAccess .. | .registerWrite .. | .clauseEntry .. | .launchStart ..
  | .gangPlacement .. | .completionWordWrite .. | .detcntRead .. | .violcntRead .. | .serviceLevelChange ..
  | .tlbiComplete .. | .horizonPublish .. | .admissionInterval .. | .stepAcknowledgement .. | .linkLost ..
  | .shedDeadline .. | .backstop .. | .frameerrRead .. | .drain .. | .powerReturn .. | .holdExpiry .. | .tsctlFlush ..
  | .namerefRead .. | .faceExpiry .. | .restoreGo .. | .quoteRequest .. | .powerGood .. | .discardedFrame ..
  | .quoteComplete .. => true
  | _ => false

/-- The instructions of registers, and whether their types run at S2 alone (R100). -/
def registerTable (i : Instr) : Option (Meaning × Bool) :=
  (([wordTable, dotTable, fieldTable, pairTable, immTable, predTable, floatTable, bf16Table].findSome? (· i)).map (·, false)).orElse
    fun _ => ((fp16Table i).map (·, true)).orElse fun _ => convTable i

/-- Every instruction of a table completes at a service level when its warp is ready for it. -/
def CompletesAt (table : Instr → Option (Meaning × Bool)) : Prop :=
  ∀ i m, table i = some m → ∀ s iss w, (m.2 = true → s.level = 2) → Ready s iss w m.1.guard m.1.uses →
    ∃ t, exec i s = .next t ∧ Completes s t iss w (passing iss m.1.guard (fun _ f => m.1.effect f))

/-- The warp of an issue, with no cause to take in an acting fibre. -/
structure Calm (s : State) (iss : Issue) (w : Warp) (g : Option Guard) : Prop extends Issuing s iss w where
  calm : ∀ l f, l ∈ acting iss w g → w.fibre? l = some f → f.causes = []
/-- The first source operand, in the order of the fields, that has its operand bit and an empty entry (R19): its place and the
operand. -/
def firstEmpty (w : Warp) (f : Fibre) (l : List Operand) : Option (Nat × Operand) :=
  (((List.range l.length).zip l).find? (fun e => e.2.bit && e.2.isEmpty w f))
/-- REG_EMPTY's information: the register in [5:0] with [8] for an s register, and the operand's place in [11:9] (R313). -/
def emptyInfo (o : Nat × Operand) : Word := BitVec.ofNat 32 (o.2.reg + (if o.2.isS then 2 ^ 8 else 0) + o.1 % 8 * 2 ^ 9)

/-- A word with its guard field replaced. -/
def withGuard (w : Word) (g : BitVec 4) : Word := (w &&& 0xFF0FFFFF) ||| (g.setWidth 32 <<< 20)

/-- The state in which the instruction that a warp stands at is issued: the warp takes the turn that has come to it, and its wait
mask is over. -/
def issuing (s : State) (k : WarpKey) (w : Warp) (serial : Bool) (iss : Issue) : State :=
  { ((s.setWarp k { w with serial := serial }).holdTurn k).modWarp k (fun w => { w with mask := 0 }) with issue := some iss }

/-- What the fibres of a set do next: they stand at an instruction of the clause that they have entered. -/
structure Standing (s : State) (k : WarpKey) (w : Warp) (sel : Sel) (serial : Bool) (f : Fibre) : Prop where
  warp : s.warp? k = some w
  issues : s.canIssue k = true
  turn : s.hasTurn k = true
  free : w.casHeld = false
  set : (match w.sel with
    | some x => some (x, w.serial)
    | none => w.choose) = some (sel, serial)
  first : (sel.lanes.filterMap w.fibre?).head? = some f
  inside : f.inside = true
  fetched : ∀ l ∈ sel.lanes, ∀ g, w.fibre? l = some g → g.refetch = false
  mask : w.mask = 0 ∨ s.maskMet k w = true

/-- The move that a state makes next and what stays on its agenda: its head, or, when it is empty, the one that the model finds. -/
def due (s : State) (m : Turn) (rest : List Turn) : Prop :=
  s.agenda = m :: rest ∨ (s.agenda = [] ∧ rest = [] ∧ s.nextMove = some m)
/-- The state in which that move is made: warps have stopped where they leave their cores, and free turns are given. -/
def begun (s : State) (rest : List Turn) : State := ({ s with agenda := rest, tick := s.tick + 1 } : State).settled
/-- The words that a fibre of a clause stands at. -/
def wordsAt (f : Fibre) : Word × Word := (f.body.getD ((f.pc - f.hdr).toNat - 1) 0, f.body.getD ((f.pc - f.hdr).toNat) 0)

end Sys2Proof.Claims

open Sys2Proof Sys2Proof.Machine Sys2Proof.Safety Sys2Proof.Claims

/-! ## The statements -/

/-- A step runs the decoded instruction (R56, R64, R144): when the words at the PC of the chosen set decode to an instruction,
the step is that instruction's, at the state in which it is issued; and a step of another agent is its own. Who moves next, and
that one move is one step, is the model's choice (log entries 2 and 105), as is the lowest lane's words standing for the set's
(113), what is settled before the move (112), and a second word outside the clause, which reads 0 (152). -/
def Obligations.StepRunsDecoded : Prop :=
  (∀ s k rest w sel serial f i, due s (.warp k) rest → Standing (begun s rest) k w sel serial f →
    decodeWords (wordsAt f).1 (wordsAt f).2 = .ok i →
    step s = endIssue (exec i (issuing (begun s rest) k w serial
      ⟨k, sel, f.pc, f.hdr, wordCount (wordsAt f).1, (wordsAt f).1, (wordsAt f).2⟩))) ∧
  ∀ s i rest, due s (.event i) rest → step s = endIssue (exec i { begun s rest with issue := none })

/-- Words that decode to no instruction of the table (R64): every fibre of the set takes RESERVED_FIELD, whatever its guard, with
the words in TRINFO0 and TRINFO1, and nothing retires. -/
def Obligations.ReservedWordsTrap : Prop :=
  ∀ s k rest w sel serial f e la, due s (.warp k) rest → Standing (begun s rest) k w sel serial f → w.spec = none →
    decodeWords (wordsAt f).1 (wordsAt f).2 = .error e →
    s.launch? k.lid = some la → la.hdlr = true → sel.lanes.Nodup → (∀ l ∈ sel.lanes, ∃ g, w.fibre? l = some g ∧ g.handler = false) →
    ∃ t w', step s = .next t ∧ MemSame s t ∧ t.warp? k = some w' ∧ w'.retired = w.retired ∧ ∀ l, w'.fibre? l = (w.fibre? l).map (fun g =>
      if l ∈ sel.lanes then
        { g with handler := true, pc := la.record.handler, hdr := la.record.handler, inside := false, body := [], refetch := false
                 tr := { cause := 3, info0 := (wordsAt f).1, info1 := if wordCount (wordsAt f).1 = 2 then (wordsAt f).2 else 0
                         pc := g.pc, hdr := g.hdr } }
      else g)

/-- Words that the manual encodes, and the instructions they stand for. -/
def Obligations.ManualWordsDecode : Prop :=
  let p (n : Fin 8) : Guard := ⟨false, n⟩
  decodeWords 0xE070C000 0xFFFFFFFF = .ok (.movi (p 7) 3 0xFFFFFFFF) ∧
  decodeWords 0x0A71420C 0 = .ok (.idivS32 ⟨p 7, 5, 2, 3, false, false⟩) ∧
  decodeWords 0x0872820C 0 = .ok (.imulwS32 ⟨p 7, 10, 2, 3, false, false⟩) ∧
  decodeWords 0x30728210 0 = .ok (.icmp ⟨p 7, 1, .lt, 2, 4, false, false⟩) ∧
  decodeWords 0x30758210 0 = .ok (.icmp ⟨p 7, 2, .lo, 2, 4, false, false⟩)

/-- Decoding the bytes of a well-formed instruction gives it back, with nothing left over. -/
def Obligations.DecodeEncodeRoundTrip : Prop :=
  ∀ i, agentStep i = false → WellFormed i → decode ((encode i).flatMap bytesOfWord) = .ok (i, [])

/-- Whether a word is an instruction does not depend on its guard (R16, R57). F-U has no guard. -/
def Obligations.GuardLeavesDecoding : Prop :=
  ∀ (w v : Word) (g : BitVec 4), w.toNat / 2 ^ 24 ≠ 0x3A → w.toNat / 2 ^ 24 ≠ 0x3B →
    (decodeWords w v).toOption.isSome = (decodeWords (withGuard w g) v).toOption.isSome ∧
    ∀ e, decodeWords w v = .error e ↔ decodeWords (withGuard w g) v = .error e

/-- Package memory keeps its canonical form at every step, from every state that has it. -/
def Obligations.StepKeepsMemoryForm : Prop := ∀ s t, MemoryOk s → step s = .next t → MemoryOk t

/-- After reset (R5, R387, R393): memory has its canonical form, no launch, group or warp stands, nothing was booted or
measured, and the service level is S0. -/
def Obligations.ResetLeavesNothingRunning : Prop :=
  MemoryOk State.reset ∧ State.reset.warps = [] ∧ State.reset.groups = [] ∧ State.reset.launches = [] ∧ State.reset.level = 0 ∧
  State.reset.boot.meas = [] ∧ State.reset.boot.ran = [] ∧ State.reset.boot.err = 0 ∧ State.reset.out = []

/-- No state stops the machine: every step has a next state. -/
def Obligations.EveryStepGoesOn : Prop := ∀ s, GoesOn s

/-- One step of the generator (R25); a state that is not zero stays so. -/
def Obligations.GeneratorStep : Prop :=
  ∀ x : Word, genStep x =
    (let a := x ^^^ (x <<< 13)
     let b := a ^^^ (a >>> 17)
     b ^^^ (b <<< 5)) ∧ (x ≠ 0 → genStep x ≠ 0)

/-- The seed of a fibre (R26), which is never zero and never steps to zero; a fibre is created with it, by placement and by
SPAWN. -/
def Obligations.GeneratorSeed : Prop :=
  (∀ (seed : DWord) (k : WarpKey) (lane n : Nat),
    let id := k.w * 64 + lane
    let x := seed.extractLsb' 0 32 ^^^ seed.extractLsb' 32 32 ^^^ BitVec.ofNat 32 ((id + 1) * 0x9E3779B9)
    genSeed seed (identity k lane) = (if x = 0 then 0x6A09E667 else x) ∧
    Nat.rec (genSeed seed (identity k lane)) (fun _ x => genStep x) n ≠ (0 : Word)) ∧
  (∀ (l : Launch) k lane f, (l.newWarp k).fibre? lane = some f → f.gen = genSeed l.record.seed (identity k lane)) ∧
  ∀ s iss w i m, (∃ g d wo disp, i = .spawn g d wo disp) → fibreTable s iss w i = some m → WellFormed i →
    Ready s iss w m.guard m.uses → m.need → ∃ t w', exec i s = .next t ∧ t.warp? iss.key = some w' ∧ ∀ e ∈ spawns s iss w (m.guard.getD ⟨false, 7⟩),
      ∃ f, w'.fibre? e.1 = some f ∧
        f.gen = genSeed (((s.launch? iss.key.lid).map (·.record.seed)).getD 0) (identity iss.key e.1)

/-- A value that a format represents is rounded to its own encoding, in every mode, saturating or not. -/
def Obligations.EncodingsRoundToThemselves : Prop :=
  ∀ fm ∈ [f32, f16, bf16, e4m3, e5m2], ∀ c, c < 2 ^ (1 + fm.ebits + fm.fbits) → (∃ neg m e, fdec fm c = .fin neg m e) →
    ∀ mode sat g, fround fm mode sat g (fdec fm c) = c

/-- An acting fibre with an empty entry under its operand bit takes REG_EMPTY for the first such operand (R19, R313). When no other
acting fibre waits, they go on: below S2 they take FORMAT_SLOT with 0xFF if the instruction has an FP16 or FP8 value (R100), else
the instruction completes in them, which counts. When one of the others waits, they stay, and the instruction is theirs later. -/
def Obligations.EmptyOperandsTrap : Prop :=
  ∀ i m, registerTable i = some m → ∀ s iss w, Calm s iss w m.1.guard → Handled s iss w m.1.guard →
    let short : Fibre → Option (Nat × Operand) := fun f => firstEmpty w f m.1.uses.src
    let rest := fun l f => l ∈ acting iss w m.1.guard ∧ w.fibre? l = some f ∧ short f = none
    let trapped := fun f o => entered s iss f 0x08 (emptyInfo o) 0 f.pc f.hdr
    (∃ l f, l ∈ acting iss w m.1.guard ∧ w.fibre? l = some f ∧ (short f).isSome = true) →
    ((∀ l f, rest l f → m.1.uses.waits w f = false) → ∃ t, exec i s = .next t ∧ ∀ n,
      (n = 1 ↔ (∃ l f, rest l f) ∧ (m.2 = true → s.level = 2)) → n ≤ 1 →
      Completes s t iss w (count := n) (moving iss m.1.guard (fun _ f => match short f with
        | some o => trapped f o
        | none => if m.2 = true ∧ s.level ≠ 2 then entered s iss f 0x22 0xFF 0 f.pc f.hdr else (m.1.effect f).advance iss.len))) ∧
    ((∃ l f, rest l f ∧ m.1.uses.waits w f = true) → ∃ t w', exec i s = .next t ∧ { t with warps := s.warps } = s ∧
      (∀ k, k ≠ iss.key → t.warp? k = s.warp? k) ∧ t.warp? iss.key = some w' ∧ { w' with slots := w.slots, sel := w.sel } = w ∧
      (∀ l, w'.fibre? l = (w.fibre? l).map (fun f => if l ∈ acting iss w m.1.guard then ((short f).map (trapped f)).getD f else f)) ∧
      ∃ b, w'.sel = some { iss.sel with lanes := b, blocked := true } ∧ b.Sublist iss.sel.lanes ∧
        ∀ l, l ∈ b ↔ l ∈ iss.sel.lanes ∧ (l ∈ acting iss w m.1.guard → ∃ f, rest l f))

/-- A fibre with an empty entry that has no operand bit, or an empty destination, keeps its warp waiting with its set: nothing
else happens (R19, R20, R145). -/
def Obligations.OperandsWait : Prop :=
  ∀ i m, registerTable i = some m → ∀ s iss w, Calm s iss w m.1.guard →
    (∀ l f, l ∈ acting iss w m.1.guard → w.fibre? l = some f → firstEmpty w f m.1.uses.src = none) →
    (∃ l f, l ∈ acting iss w m.1.guard ∧ w.fibre? l = some f ∧ m.1.uses.waits w f = true) →
    exec i s = .next (s.modWarp iss.key (fun x => { x with sel := some { iss.sel with blocked := true } }))

/-- Word arithmetic, logic, shifts and bit counts, and the bit-field instructions (R77, R81). -/
def Obligations.WordArithmetic : Prop := CompletesAs wordTable ∧ CompletesAs fieldTable
/-- IDOT4.s8 (R80): a word of opcode 0x15 is the instruction, with the fields of format F-A (R58); its result is the
accumulator plus the four signed byte products, wrapped; and its accumulator vd waits as a source of operand bit 0 (R76). -/
def Obligations.ByteDotProduct : Prop :=
  (∀ w v : Word, w.extractLsb' 24 8 = 0x15 → decodeWords w v = .ok (.idot4S8
    { g := ⟨w.getLsbD 23, (w.extractLsb' 20 3).toFin⟩, d := (w.extractLsb' 14 6).toFin, a := (w.extractLsb' 8 6).toFin,
      b := (w.extractLsb' 2 6).toFin, fa := w.getLsbD 1, fb := w.getLsbD 0 })) ∧
  CompletesAs dotTable
/-- 64-bit and widening arithmetic (R78), and immediates, moves and IMAD (R85 to R90). -/
def Obligations.PairAndImmediateArithmetic : Prop := CompletesAs pairTable ∧ CompletesAs immTable
/-- Integer compares, predicates and selections (R62, R82 to R86). -/
def Obligations.PredicateResults : Prop := CompletesAs predTable
/-- FP32 arithmetic (R102 to R104, R106, R107), paired BF16 and FP16 arithmetic, and FCMP (R100, R105, R108 to R110). -/
def Obligations.FloatResults : Prop :=
  CompletesAs floatTable ∧ CompletesAs bf16Table ∧ CompletesAt (fun i => (fp16Table i).map (fun m => (m, true)))
/-- Conversions and FFMA4 (R44, R45, R47, R111, R114 to R116). -/
def Obligations.ConversionResults : Prop := CompletesAt convTable
/-- FORMAT_SLOT of a conversion's slot, and of FP16 and FP8 below S2 (R100, R116, R292). -/
def Obligations.FormatSlotTraps : Prop := Runs slotTable ∧ Runs lowTable
/-- The uniform ALU and the special registers (R87 to R97). CLKLO and CLKHI outside deterministic mode, and SVCLEVEL, are the
model's choices of log entries 16 and 53. -/
def Obligations.UniformResults : Prop := Runs uniformTable
/-- Divisions (R79). -/
def Obligations.DivisionsCompleteLater : Prop := Runs divideTable
/-- The special functions complete later (R112); their special inputs; and reciprocals and roots: 1/x and 1/√x faithful, √x the
nearest number (R113). -/
def Obligations.FunctionsCompleteLater : Prop :=
  Runs functionTable ∧ SpecialInputs ∧ ∀ x : Word, Ordinary x →
    FaithfulTo (frcp x) (1 / number x.toNat) ∧
    (0 < number x.toNat → FaithfulTo (frsq x) (1 / √(number x.toNat)) ∧ NearestTo (fsqrt x) √(number x.toNat))
/-- 2^x, log₂ x, sin x, cos x and tanh x are faithful at every finite input (R112, R113). -/
def Obligations.TranscendentalsFaithful : Prop :=
  ∀ x : Word, Ordinary x → ∀ v : ℝ, v = number x.toNat →
    FaithfulTo (fex2 x) (2 ^ v) ∧ (0 < v → FaithfulTo (flg2 x) (Real.logb 2 v)) ∧ FaithfulTo (fsin x) (Real.sin v) ∧
    FaithfulTo (fcos x) (Real.cos v) ∧ FaithfulTo (ftanh x) (Real.tanh v)
/-- Cross-lane instructions (R154 to R163). -/
def Obligations.CrossLaneResults : Prop := Runs crossTable
/-- Branches, calls, returns, software traps and their return, and the traps of calls, returns, SPAWN, TRET and SRSET (R23, R24, R93,
R117 to R126). The words that a trap saves (25) and the refetch of TRET (28) are the readings of those log entries. -/
def Obligations.ControlTransfers : Prop := Runs controlTable ∧ Runs controlTrapTable ∧ Runs resumeInsideTable
/-- Loads, stores, atomics and LAUNCH go out (R127 to R132, R190, R222 to R224, R250 to R258). That ATOM and RED of a pair of FP16
complete below S2 too is the model's choice of log entry 120. -/
def Obligations.AccessesGoOut : Prop := Accesses accessTable
/-- The traps of their addresses (R28, R127, R234, R251). The reason of such an address (26), the bound of an atomic in scratch
(37), the comparison of locks (38) and the second half of a pair at the top of the address space (147) are readings of those log
entries. -/
def Obligations.BadAddressesTrap : Prop := Runs badAccessTable
/-- An address with any of bits [63:56] set takes ACCESS_FAULT in its fibre, and no access is made (R28). -/
def Obligations.HighAddressesFault : Prop :=
  ∀ i m, accessTable i = some m → m.space = .memory → WellFormed i → ∀ s iss w, Ready s iss w (some m.guard) m.uses →
    Handled s iss w (some m.guard) → acting iss w (some m.guard) ≠ [] → LogFree iss w (some m.guard) →
    (m.op.compared = true → Compared s iss w) → s.isDet iss.key = false →
    (∀ l f, l ∈ acting iss w (some m.guard) → w.fibre? l = some f → 2 ^ 56 ≤ address m w f) →
    (∀ f, address m w f < 2 ^ 64) ∧
    ∃ t, exec i s = .next t ∧ Completes s t iss w (moving iss (some m.guard) (fun _ f =>
      entered s iss f 0x11 (BitVec.ofNat 32 (address m w f)) (BitVec.ofNat 32 (address m w f / 2 ^ 32)) f.pc f.hdr)) (count := 0)
/-- LEA, FENCE, the cache operations, and the start of ICINV (R133, R260 to R264). What a lock is to a cache operation (131) is the
model's choice, and that stage 1 drops PREFETCH (132) its reading of R264 and R345, in those log entries; a lease for a copy of a
line whose home is another package is the choice of 148. -/
def Obligations.CacheOperations : Prop := Runs cacheTable ∧ IcinvBegins
/-- SPAWN and QUIT (R122 to R124), QUIT of a warp's last fibre among them (R194; when its group goes is log entry 116). -/
def Obligations.FibresComeAndGo : Prop := Runs fibreTable ∧ Runs lastQuitTable ∧ LastQuitEndsGroup
/-- Barriers and their traps (R165 to R169). Passing the turn (47), waiting for a held arrival (48), what a package that is not
the root sends (49), that BAR.TEST writes pd whatever the warp's membership (119), and that BAR.INIT and BAR.DROP act as they leave
the store gate (128) are the model's, in those log entries. -/
def Obligations.BarrierInstructions : Prop := Runs barrierTable ∧ Runs barrierBusyTable
/-- The deque (R186 to R188). The information of DEQ.STEAL's DET_UNSUPPORTED, and the order of DEQ.PUSH after the warp's
accesses, are the readings of log entries 26 and 45. -/
def Obligations.DequeInstructions : Prop := Runs dequeTable
/-- REG.GROW, REG.SHRINK, STEP, PWR.HINT and LANECHK (R189 to R193, R331, R351). LANECHK's outcome is the model's of log entries
20 and 72, the information of its DET_UNSUPPORTED that of 26. STEP is stated here for its trap; its completion is in `WaitsEnd`.
-/
def Obligations.ResourceInstructions : Prop := Runs resourceTable
/-- A wait that is over lets its instruction complete (R56, R167, R191, R192, R262). Passing the turn again when a wait ends is
the reading of log entry 47. -/
def Obligations.WaitsEnd : Prop := Resumes resumeTable
/-- Tile instructions, and the traps that do not depend on a fibre (R276 to R280, R295, R307, R308). The order of TILE_STATE and
TILE_SHAPE in TCVT (158) and TMOV (159) is the model's choice, and that their effects wait in the store gate (128) its reading, in
those log entries. -/
def Obligations.TileInstructions : Prop := Runs tileTable ∧ Runs tileTrapTable ∧ Runs tileShapeTable
/-- MMA, EPI and COPY are issued, or take the trap of a check (R293 to R297, R309), and which check: those of the block, of the
slots, tiles and ring slots, and of the addresses, in the order of R294 (R302, R304 to R306, R313). Where the bounds of an EPI (157)
and the state of an MMA's tile (158) stand among them is the model's choice, in those log entries. -/
def Obligations.CommandsIssue : Prop := Runs commandTable ∧ ChecksDecide
/-- Named tiles, and the traps of PUB and GET (R279, R377 to R383). That they act as they leave the store gate is log entry 128. -/
def Obligations.NameInstructions : Prop := Runs nameTable ∧ Runs nameTrapTable
/-- An instruction that no fibre of its set executes changes nothing (R17), said of the instructions whose statements above ask for an
acting fibre: those of the other tables complete there with no fibre acting. That it counts is log entry 30. -/
def Obligations.FalseGuardsChangeNothing : Prop := Idles
/-- Loads, stores, atomics and LAUNCH reach memory, scratch and the device queue, and what the store gate holds acts as it leaves
the gate (R18, R185, R224, R242, R245, R329). What the gate holds (128), how LAUNCH answers (77) and the warps of other packages (140)
are the model's, in those log entries. -/
def Obligations.AccessesComplete : Prop := ∀ k w p, Happens (fun s => accessEvents s k w p)
/-- Fences, recalls, instruction copies, and domain barriers (R167, R238 to R240, R262, R376). What a package that is not the
root does is the reading of log entry 49. -/
def Obligations.OrderingEvents : Prop := Happens orderEvents ∧ Happens domainEvents
/-- The launch front end (R179 to R184, R243, R349): which record is accepted, and which code the others get. The order of those checks
(77) and the count of the warps of other packages (140) are the model's, in those log entries. -/
def Obligations.FrontEndEvents : Prop := Happens frontEvents
/-- Placement, grants, steps, steering and horizons (R138, R178, R184, R191, R192, R245). Horizons (43), swap-outs of stalled
groups (80) and steering (83) follow the readings of those log entries. -/
def Obligations.PlacementEvents : Prop := Happens placeEvents
/-- Units that fail, retire and are tested (R201, R205, R209 to R211, R303, R331 to R337, R351). Self-checks (20, 72), injection
(73), rollback (74, 75), utilisation (90), evacuation (108) and the order of retirements (139) are the model's, in those log
entries. -/
def Obligations.RepairEvents : Prop := Happens repairEvents
/-- Walks and invalidations (R216, R219 to R221). That the hub's own requests wait for an invalidation of any die is log entry 161. -/
def Obligations.TranslationEvents : Prop := Happens translationEvents
/-- Engine commands complete, or ask another package for what they need (R170, R235, R283, R302 to R306, R370): the sums of an MMA
(R303) and the blocks of an EPI or a conversion (R288) are written out. That requests go one at a time (55) and which columns are left
(160) are the model's, in those log entries. -/
def Obligations.EngineCompletions : Prop :=
  (∀ x w q, Happens (fun s => engineEvents s x w q)) ∧ ∀ x w q, Happens (fun s => enginePeers s x w q)
/-- Conversions complete; commands are admitted, stop and end (R299 to R301, R307, R310). The energy of a stop (21), the stops
of a command (59, 60) and its column (62) are the model's, in those log entries. -/
def Obligations.EngineStopsAndEnds : Prop := ∀ x w q, Happens (fun s => engineStops s x w q)
/-- Fault queues and their answers (R316 to R320). Notices and their order (34, 64), delivered commands (65), fault reasons (66)
and answers (76) are the readings of those log entries. -/
def Obligations.FaultAnswers : Prop := ∀ w, Happens (fun s => faultEvents s w)
/-- Groups leave their cores (R204, R319, R321, R322). Accesses at a swap-out (68) and the pool (69) are the readings of those
log entries. -/
def Obligations.SwapEvents : Prop := Happens swapEvents
/-- Where a swap image keeps each part of a group: its header, warps, fibres, operand-log entries, registers, tiles, ring slots,
commands and scratch (R323 to R327). -/
def Obligations.ImageLayouts : Prop := ImagesLaid
/-- Power that follows the grid (R340 to R348). Acknowledgement numbers (84), the order of the throttle (85), frames (86, 87),
shedding (88) and the count of the falls that the backstop takes (143) are the model's, in those log entries. -/
def Obligations.GridEvents : Prop := Happens gridEvents
/-- Admission intervals and cluster retention (R350, R352 to R354). Balances and debts (89), retention (91) and what wakes a
cluster, with its cause (142), are the readings of those log entries. -/
def Obligations.ClusterEvents : Prop := Happens clusterEvents
/-- Requests of other packages, and what answers ours (R370 to R375). The causes and the discards of an old epoch are the
readings of log entries 66, 67 and 95. -/
def Obligations.PeerEvents : Prop := ∀ o w p, Happens (fun s => peerEvents s o w p)
/-- The hub's messages (R375, R378, R380, R381, R383). Unreached packages (11), pinned tiles (97) and the shared cause (137) are
the model's, in those log entries. -/
def Obligations.HubEvents : Prop := Happens hubEvents
/-- At every µs the faces whose expiry has passed are removed; a local one ends its consumer as NAME_EXPIRED (R379).
Microseconds, one for each such
step, are the choice of log entry 10, and which fibre takes the cause is the reading of 137. -/
def Obligations.FacesExpire : Prop := Happens expiryEvents
/-- The drain, the return of power and the end of the hold time (R355 to R358). Where the drain image keeps each part
is written out (R356). What flash and the drain keep (92, 93, 94, 136), a package without a module (145) and the clock counts when
power returns (154) are the model's, in those log entries. -/
def Obligations.DrainEvents : Prop := Happens drainEvents
/-- Copies of a checkpoint, and restores (R388 to R392). Groups in restored records (82), shards (99), sets (100) and what a
stopped command goes on with (150, 151) follow those log entries. -/
def Obligations.CheckpointEvents : Prop := Happens checkpointEvents
/-- Boot, service levels, measurement, quotes and the in-field test (R5, R387, R393 to R395). Boot (101), what an enrolled key is (102), quotes (103), what
persists (104) and a GO under the throttle (144) are the model's, in those log entries. -/
def Obligations.TrustEvents : Prop := Happens trustEvents
/-- Writes to the control region and the host's windows (R385, R386). The layout of the MSI-X table is presumed (log entry 138).
-/
def Obligations.HostEvents : Prop := Happens hostEvents
/-- Clauses are entered (R49 to R53). The wait-mask bit of a logged LAUNCH (153) and a set that wholly traps at its header (155) are
the model's choices, in those log entries. -/
def Obligations.ClauseEntries : Prop := ∀ iss w la h hw body, Happens (fun s => clauseEvents s iss w la h hw body)
end

