-- ==== Sys2Proof/Laws/Maps.lean ====
section
/-! SUPPORT. What reading a sparse map gives after each of its operations, and that the operations on a map with a default
keep its canonical form. -/

namespace Sys2Proof.Machine

variable {α β : Type}

/-! ## Maps by number -/

@[simp] theorem nget?_nil (k : Nat) : nget? ([] : NMap α) k = none := rfl

theorem nget?_cons (j : Nat) (a : α) (m : NMap α) (k : Nat) :
    nget? ((j, a) :: m) k = if j = k then some a else nget? m k := rfl

@[simp] theorem nget?_nput_self (m : NMap α) (k : Nat) (a : α) : nget? (nput m k a) k = some a := by
  induction m with
  | nil => simp [nput, nget?_cons]
  | cons e m ih =>
    obtain ⟨j, b⟩ := e
    simp only [nput]
    split
    · rename_i h; simp [nget?_cons, ih, Nat.ne_of_lt h]
    · split <;> simp [nget?_cons]

theorem nget?_nput_of_ne (m : NMap α) {k i : Nat} (a : α) (h : i ≠ k) : nget? (nput m k a) i = nget? m i := by
  induction m with
  | nil => simp [nput, nget?_cons, h.symm]
  | cons e m ih =>
    obtain ⟨j, b⟩ := e
    simp only [nput]
    split
    · simp [nget?_cons, ih]
    · split
      · rename_i h1; subst h1; simp [nget?_cons, h.symm]
      · simp [nget?_cons, h.symm]

theorem nget?_nput (m : NMap α) (k i : Nat) (a : α) :
    nget? (nput m k a) i = if i = k then some a else nget? m i := by
  split
  · rename_i h; subst h; simp
  · rename_i h; exact nget?_nput_of_ne m a h

@[simp] theorem nget?_ndel_self (m : NMap α) (k : Nat) : nget? (ndel m k) k = none := by
  induction m with
  | nil => rfl
  | cons e m ih =>
    obtain ⟨j, b⟩ := e
    simp only [ndel, List.filter] at ih ⊢
    split
    · rename_i h; simp only [bne_iff_ne, ne_eq] at h
      simp [nget?_cons, h, ih]
    · exact ih

theorem nget?_ndel_of_ne (m : NMap α) {k i : Nat} (h : i ≠ k) : nget? (ndel m k) i = nget? m i := by
  induction m with
  | nil => rfl
  | cons e m ih =>
    obtain ⟨j, b⟩ := e
    simp only [ndel, List.filter] at ih ⊢
    split
    · simp [nget?_cons, ih]
    · rename_i h1; simp only [bne_eq_false_iff_eq] at h1
      subst h1; simp [nget?_cons, ih, h.symm]

@[simp] theorem ngetD_nil (d : α) (k : Nat) : ngetD ([] : NMap α) d k = d := rfl

@[simp] theorem ngetD_nput_self (m : NMap α) (d : α) (k : Nat) (a : α) : ngetD (nput m k a) d k = a := by simp [ngetD]

theorem ngetD_nput_of_ne (m : NMap α) (d : α) {k i : Nat} (a : α) (h : i ≠ k) : ngetD (nput m k a) d i = ngetD m d i := by
  simp [ngetD, nget?_nput_of_ne m a h]

@[simp] theorem ngetD_nsetD_self [DecidableEq α] (m : NMap α) (d : α) (k : Nat) (a : α) : ngetD (nsetD m d k a) d k = a := by
  simp only [nsetD]
  split
  · rename_i h; simp [ngetD, h]
  · simp

theorem ngetD_nsetD_of_ne [DecidableEq α] (m : NMap α) (d : α) {k i : Nat} (a : α) (h : i ≠ k) :
    ngetD (nsetD m d k a) d i = ngetD m d i := by
  simp only [nsetD]
  split
  · simp [ngetD, nget?_ndel_of_ne m h]
  · exact ngetD_nput_of_ne m d a h

theorem ngetD_nsetD [DecidableEq α] (m : NMap α) (d : α) (k i : Nat) (a : α) :
    ngetD (nsetD m d k a) d i = if i = k then a else ngetD m d i := by
  split
  · rename_i h; subst h; simp
  · rename_i h; exact ngetD_nsetD_of_ne m d a h

@[simp] theorem nget?_nmap (f : Nat → α → β) (m : NMap α) (k : Nat) : nget? (nmap f m) k = (nget? m k).map (f k) := by
  induction m with
  | nil => rfl
  | cons e m ih =>
    obtain ⟨j, b⟩ := e
    simp only [nmap, List.map] at ih ⊢
    simp only [nget?_cons]
    split
    · rename_i h; subst h; rfl
    · exact ih

/-! ## Canonical forms -/

theorem nsortedFrom_mono {m : NMap α} {lo lo' : Nat} (h : lo' ≤ lo) (hs : nsortedFrom lo m = true) :
    nsortedFrom lo' m = true := by
  cases m with
  | nil => rfl
  | cons e m =>
    obtain ⟨j, b⟩ := e
    simp only [nsortedFrom, Bool.and_eq_true, decide_eq_true_eq] at hs ⊢
    exact ⟨by omega, hs.2⟩

theorem nsortedFrom_nput {m : NMap α} {lo k : Nat} (a : α) (hk : lo ≤ k) (hs : nsortedFrom lo m = true) :
    nsortedFrom lo (nput m k a) = true := by
  induction m generalizing lo with
  | nil => simp [nput, nsortedFrom, hk]
  | cons e m ih =>
    obtain ⟨j, b⟩ := e
    simp only [nsortedFrom, Bool.and_eq_true, decide_eq_true_eq] at hs
    simp only [nput]
    split
    · rename_i h
      simp only [nsortedFrom, Bool.and_eq_true, decide_eq_true_eq]
      exact ⟨hs.1, ih (by omega) hs.2⟩
    · split
      · rename_i h; subst h
        simp only [nsortedFrom, Bool.and_eq_true, decide_eq_true_eq]
        exact hs
      · simp only [nsortedFrom, Bool.and_eq_true, decide_eq_true_eq]
        exact ⟨hk, by omega, hs.2⟩

theorem nsortedFrom_filter {m : NMap α} {lo : Nat} (p : Nat × α → Bool) (hs : nsortedFrom lo m = true) :
    nsortedFrom lo (m.filter p) = true := by
  induction m generalizing lo with
  | nil => rfl
  | cons e m ih =>
    obtain ⟨j, b⟩ := e
    simp only [nsortedFrom, Bool.and_eq_true, decide_eq_true_eq] at hs
    simp only [List.filter]
    split
    · simp only [nsortedFrom, Bool.and_eq_true, decide_eq_true_eq]
      exact ⟨hs.1, ih hs.2⟩
    · exact ih (nsortedFrom_mono (by omega) hs.2)

theorem mem_nput {m : NMap α} {k : Nat} {a : α} {e : Nat × α} (h : e ∈ nput m k a) : e = (k, a) ∨ e ∈ m := by
  induction m with
  | nil => simpa [nput] using h
  | cons x m ih =>
    obtain ⟨j, b⟩ := x
    simp only [nput] at h
    split at h
    · rcases List.mem_cons.1 h with h | h
      · exact .inr (h ▸ List.mem_cons_self)
      · rcases ih h with h | h
        · exact .inl h
        · exact .inr (List.mem_cons_of_mem _ h)
    · split at h
      · rcases List.mem_cons.1 h with h | h
        · exact .inl h
        · exact .inr (List.mem_cons_of_mem _ h)
      · rcases List.mem_cons.1 h with h | h
        · exact .inl h
        · exact .inr h

/-- Writing a key keeps a map with a default in canonical form. -/
theorem ncanon_nsetD [DecidableEq α] {m : NMap α} {d : α} (k : Nat) (a : α) (h : ncanon d m = true) :
    ncanon d (nsetD m d k a) = true := by
  simp only [ncanon, Bool.and_eq_true, List.all_eq_true, Bool.not_eq_true', decide_eq_false_iff_not] at h ⊢
  simp only [nsetD]
  split
  · exact ⟨nsortedFrom_filter _ h.1, fun e he => h.2 e ((List.mem_filter.1 he).1)⟩
  · rename_i hd
    refine ⟨nsortedFrom_nput a (Nat.zero_le k) h.1, fun e he => ?_⟩
    rcases mem_nput he with he | he
    · subst he; exact hd
    · exact h.2 e he

/-! ## Maps by record key -/

section
variable {κ : Type} [DecidableEq κ]

@[simp] theorem kget?_nil (k : κ) : kget? ([] : KMap κ α) k = none := rfl

theorem kget?_cons (j : κ) (a : α) (m : KMap κ α) (k : κ) :
    kget? ((j, a) :: m) k = if j = k then some a else kget? m k := rfl

@[simp] theorem kget?_kput_self (m : KMap κ α) (k : κ) (a : α) : kget? (kput m k a) k = some a := by
  induction m with
  | nil => simp [kput, kget?_cons]
  | cons e m ih =>
    obtain ⟨j, b⟩ := e
    simp only [kput]
    split
    · simp [kget?_cons]
    · rename_i h; simp [kget?_cons, h, ih]

theorem kget?_kput_of_ne (m : KMap κ α) {k i : κ} (a : α) (h : i ≠ k) : kget? (kput m k a) i = kget? m i := by
  induction m with
  | nil => simp [kput, kget?_cons, h.symm]
  | cons e m ih =>
    obtain ⟨j, b⟩ := e
    simp only [kput]
    split
    · rename_i h1; subst h1; simp [kget?_cons, h.symm]
    · simp [kget?_cons, ih]

theorem kget?_kput (m : KMap κ α) (k i : κ) (a : α) : kget? (kput m k a) i = if i = k then some a else kget? m i := by
  split
  · rename_i h; subst h; simp
  · rename_i h; exact kget?_kput_of_ne m a h

end

end Sys2Proof.Machine
end

