-- ==== Sys2Proof/Laws/State.lean ====
section
/-! SUPPORT. What each field of State is after each of its updates: one lemma per field per update. -/

namespace Sys2Proof.Machine

variable (s : State)

/-! ## setWarp and modWarp -/

@[simp] theorem State.setWarp_tick (k : WarpKey) (w : Warp) : (s.setWarp k w).tick = s.tick := rfl
@[simp] theorem State.setWarp_resetTick (k : WarpKey) (w : Warp) : (s.setWarp k w).resetTick = s.resetTick := rfl
@[simp] theorem State.setWarp_agenda (k : WarpKey) (w : Warp) : (s.setWarp k w).agenda = s.agenda := rfl
@[simp] theorem State.setWarp_issue (k : WarpKey) (w : Warp) : (s.setWarp k w).issue = s.issue := rfl
@[simp] theorem State.setWarp_mem (k : WarpKey) (w : Warp) : (s.setWarp k w).mem = s.mem := rfl
@[simp] theorem State.setWarp_poison (k : WarpKey) (w : Warp) : (s.setWarp k w).poison = s.poison := rfl
@[simp] theorem State.setWarp_lines (k : WarpKey) (w : Warp) : (s.setWarp k w).lines = s.lines := rfl
@[simp] theorem State.setWarp_tags (k : WarpKey) (w : Warp) : (s.setWarp k w).tags = s.tags := rfl
@[simp] theorem State.setWarp_heldReds (k : WarpKey) (w : Warp) : (s.setWarp k w).heldReds = s.heldReds := rfl
@[simp] theorem State.setWarp_launches (k : WarpKey) (w : Warp) : (s.setWarp k w).launches = s.launches := rfl
@[simp] theorem State.setWarp_groups (k : WarpKey) (w : Warp) : (s.setWarp k w).groups = s.groups := rfl
@[simp] theorem State.setWarp_bars (k : WarpKey) (w : Warp) : (s.setWarp k w).bars = s.bars := rfl
@[simp] theorem State.setWarp_cores (k : WarpKey) (w : Warp) : (s.setWarp k w).cores = s.cores := rfl
@[simp] theorem State.setWarp_dies (k : WarpKey) (w : Warp) : (s.setWarp k w).dies = s.dies := rfl
@[simp] theorem State.setWarp_front (k : WarpKey) (w : Warp) : (s.setWarp k w).front = s.front := rfl
@[simp] theorem State.setWarp_tlbi (k : WarpKey) (w : Warp) : (s.setWarp k w).tlbi = s.tlbi := rfl
@[simp] theorem State.setWarp_farTable (k : WarpKey) (w : Warp) : (s.setWarp k w).farTable = s.farTable := rfl
@[simp] theorem State.setWarp_farOut (k : WarpKey) (w : Warp) : (s.setWarp k w).farOut = s.farOut := rfl
@[simp] theorem State.setWarp_farFailed (k : WarpKey) (w : Warp) : (s.setWarp k w).farFailed = s.farFailed := rfl
@[simp] theorem State.setWarp_retirements (k : WarpKey) (w : Warp) : (s.setWarp k w).retirements = s.retirements := rfl
@[simp] theorem State.setWarp_retiring (k : WarpKey) (w : Warp) : (s.setWarp k w).retiring = s.retiring := rfl
@[simp] theorem State.setWarp_movingToS2 (k : WarpKey) (w : Warp) : (s.setWarp k w).movingToS2 = s.movingToS2 := rfl
@[simp] theorem State.setWarp_retirementMap (k : WarpKey) (w : Warp) : (s.setWarp k w).retirementMap = s.retirementMap := rfl
@[simp] theorem State.setWarp_domid (k : WarpKey) (w : Warp) : (s.setWarp k w).domid = s.domid := rfl
@[simp] theorem State.setWarp_onModule (k : WarpKey) (w : Warp) : (s.setWarp k w).onModule = s.onModule := rfl
@[simp] theorem State.setWarp_level (k : WarpKey) (w : Warp) : (s.setWarp k w).level = s.level := rfl
@[simp] theorem State.setWarp_clusters (k : WarpKey) (w : Warp) : (s.setWarp k w).clusters = s.clusters := rfl
@[simp] theorem State.setWarp_grid (k : WarpKey) (w : Warp) : (s.setWarp k w).grid = s.grid := rfl
@[simp] theorem State.setWarp_inject (k : WarpKey) (w : Warp) : (s.setWarp k w).inject = s.inject := rfl
@[simp] theorem State.setWarp_ck (k : WarpKey) (w : Warp) : (s.setWarp k w).ck = s.ck := rfl
@[simp] theorem State.setWarp_boot (k : WarpKey) (w : Warp) : (s.setWarp k w).boot = s.boot := rfl
@[simp] theorem State.setWarp_router (k : WarpKey) (w : Warp) : (s.setWarp k w).router = s.router := rfl
@[simp] theorem State.setWarp_host (k : WarpKey) (w : Warp) : (s.setWarp k w).host = s.host := rfl
@[simp] theorem State.setWarp_flows (k : WarpKey) (w : Warp) : (s.setWarp k w).flows = s.flows := rfl
@[simp] theorem State.setWarp_inflows (k : WarpKey) (w : Warp) : (s.setWarp k w).inflows = s.inflows := rfl
@[simp] theorem State.setWarp_flash (k : WarpKey) (w : Warp) : (s.setWarp k w).flash = s.flash := rfl
@[simp] theorem State.setWarp_out (k : WarpKey) (w : Warp) : (s.setWarp k w).out = s.out := rfl

@[simp] theorem State.modWarp_tick (k : WarpKey) (fn : Warp → Warp) : (s.modWarp k fn).tick = s.tick := by unfold State.modWarp; split <;> rfl
@[simp] theorem State.modWarp_resetTick (k : WarpKey) (fn : Warp → Warp) : (s.modWarp k fn).resetTick = s.resetTick := by unfold State.modWarp; split <;> rfl
@[simp] theorem State.modWarp_agenda (k : WarpKey) (fn : Warp → Warp) : (s.modWarp k fn).agenda = s.agenda := by unfold State.modWarp; split <;> rfl
@[simp] theorem State.modWarp_issue (k : WarpKey) (fn : Warp → Warp) : (s.modWarp k fn).issue = s.issue := by unfold State.modWarp; split <;> rfl
@[simp] theorem State.modWarp_mem (k : WarpKey) (fn : Warp → Warp) : (s.modWarp k fn).mem = s.mem := by unfold State.modWarp; split <;> rfl
@[simp] theorem State.modWarp_poison (k : WarpKey) (fn : Warp → Warp) : (s.modWarp k fn).poison = s.poison := by unfold State.modWarp; split <;> rfl
@[simp] theorem State.modWarp_lines (k : WarpKey) (fn : Warp → Warp) : (s.modWarp k fn).lines = s.lines := by unfold State.modWarp; split <;> rfl
@[simp] theorem State.modWarp_tags (k : WarpKey) (fn : Warp → Warp) : (s.modWarp k fn).tags = s.tags := by unfold State.modWarp; split <;> rfl
@[simp] theorem State.modWarp_heldReds (k : WarpKey) (fn : Warp → Warp) : (s.modWarp k fn).heldReds = s.heldReds := by unfold State.modWarp; split <;> rfl
@[simp] theorem State.modWarp_launches (k : WarpKey) (fn : Warp → Warp) : (s.modWarp k fn).launches = s.launches := by unfold State.modWarp; split <;> rfl
@[simp] theorem State.modWarp_groups (k : WarpKey) (fn : Warp → Warp) : (s.modWarp k fn).groups = s.groups := by unfold State.modWarp; split <;> rfl
@[simp] theorem State.modWarp_bars (k : WarpKey) (fn : Warp → Warp) : (s.modWarp k fn).bars = s.bars := by unfold State.modWarp; split <;> rfl
@[simp] theorem State.modWarp_cores (k : WarpKey) (fn : Warp → Warp) : (s.modWarp k fn).cores = s.cores := by unfold State.modWarp; split <;> rfl
@[simp] theorem State.modWarp_dies (k : WarpKey) (fn : Warp → Warp) : (s.modWarp k fn).dies = s.dies := by unfold State.modWarp; split <;> rfl
@[simp] theorem State.modWarp_front (k : WarpKey) (fn : Warp → Warp) : (s.modWarp k fn).front = s.front := by unfold State.modWarp; split <;> rfl
@[simp] theorem State.modWarp_tlbi (k : WarpKey) (fn : Warp → Warp) : (s.modWarp k fn).tlbi = s.tlbi := by unfold State.modWarp; split <;> rfl
@[simp] theorem State.modWarp_farTable (k : WarpKey) (fn : Warp → Warp) : (s.modWarp k fn).farTable = s.farTable := by unfold State.modWarp; split <;> rfl
@[simp] theorem State.modWarp_farOut (k : WarpKey) (fn : Warp → Warp) : (s.modWarp k fn).farOut = s.farOut := by unfold State.modWarp; split <;> rfl
@[simp] theorem State.modWarp_farFailed (k : WarpKey) (fn : Warp → Warp) : (s.modWarp k fn).farFailed = s.farFailed := by unfold State.modWarp; split <;> rfl
@[simp] theorem State.modWarp_retirements (k : WarpKey) (fn : Warp → Warp) : (s.modWarp k fn).retirements = s.retirements := by unfold State.modWarp; split <;> rfl
@[simp] theorem State.modWarp_retiring (k : WarpKey) (fn : Warp → Warp) : (s.modWarp k fn).retiring = s.retiring := by unfold State.modWarp; split <;> rfl
@[simp] theorem State.modWarp_movingToS2 (k : WarpKey) (fn : Warp → Warp) : (s.modWarp k fn).movingToS2 = s.movingToS2 := by unfold State.modWarp; split <;> rfl
@[simp] theorem State.modWarp_retirementMap (k : WarpKey) (fn : Warp → Warp) : (s.modWarp k fn).retirementMap = s.retirementMap := by unfold State.modWarp; split <;> rfl
@[simp] theorem State.modWarp_domid (k : WarpKey) (fn : Warp → Warp) : (s.modWarp k fn).domid = s.domid := by unfold State.modWarp; split <;> rfl
@[simp] theorem State.modWarp_onModule (k : WarpKey) (fn : Warp → Warp) : (s.modWarp k fn).onModule = s.onModule := by unfold State.modWarp; split <;> rfl
@[simp] theorem State.modWarp_level (k : WarpKey) (fn : Warp → Warp) : (s.modWarp k fn).level = s.level := by unfold State.modWarp; split <;> rfl
@[simp] theorem State.modWarp_clusters (k : WarpKey) (fn : Warp → Warp) : (s.modWarp k fn).clusters = s.clusters := by unfold State.modWarp; split <;> rfl
@[simp] theorem State.modWarp_grid (k : WarpKey) (fn : Warp → Warp) : (s.modWarp k fn).grid = s.grid := by unfold State.modWarp; split <;> rfl
@[simp] theorem State.modWarp_inject (k : WarpKey) (fn : Warp → Warp) : (s.modWarp k fn).inject = s.inject := by unfold State.modWarp; split <;> rfl
@[simp] theorem State.modWarp_ck (k : WarpKey) (fn : Warp → Warp) : (s.modWarp k fn).ck = s.ck := by unfold State.modWarp; split <;> rfl
@[simp] theorem State.modWarp_boot (k : WarpKey) (fn : Warp → Warp) : (s.modWarp k fn).boot = s.boot := by unfold State.modWarp; split <;> rfl
@[simp] theorem State.modWarp_router (k : WarpKey) (fn : Warp → Warp) : (s.modWarp k fn).router = s.router := by unfold State.modWarp; split <;> rfl
@[simp] theorem State.modWarp_host (k : WarpKey) (fn : Warp → Warp) : (s.modWarp k fn).host = s.host := by unfold State.modWarp; split <;> rfl
@[simp] theorem State.modWarp_flows (k : WarpKey) (fn : Warp → Warp) : (s.modWarp k fn).flows = s.flows := by unfold State.modWarp; split <;> rfl
@[simp] theorem State.modWarp_inflows (k : WarpKey) (fn : Warp → Warp) : (s.modWarp k fn).inflows = s.inflows := by unfold State.modWarp; split <;> rfl
@[simp] theorem State.modWarp_flash (k : WarpKey) (fn : Warp → Warp) : (s.modWarp k fn).flash = s.flash := by unfold State.modWarp; split <;> rfl
@[simp] theorem State.modWarp_out (k : WarpKey) (fn : Warp → Warp) : (s.modWarp k fn).out = s.out := by unfold State.modWarp; split <;> rfl

/-! ## setGroup and modGroup -/

@[simp] theorem State.setGroup_tick (k : GroupKey) (g : Group) : (s.setGroup k g).tick = s.tick := rfl
@[simp] theorem State.setGroup_resetTick (k : GroupKey) (g : Group) : (s.setGroup k g).resetTick = s.resetTick := rfl
@[simp] theorem State.setGroup_agenda (k : GroupKey) (g : Group) : (s.setGroup k g).agenda = s.agenda := rfl
@[simp] theorem State.setGroup_issue (k : GroupKey) (g : Group) : (s.setGroup k g).issue = s.issue := rfl
@[simp] theorem State.setGroup_mem (k : GroupKey) (g : Group) : (s.setGroup k g).mem = s.mem := rfl
@[simp] theorem State.setGroup_poison (k : GroupKey) (g : Group) : (s.setGroup k g).poison = s.poison := rfl
@[simp] theorem State.setGroup_lines (k : GroupKey) (g : Group) : (s.setGroup k g).lines = s.lines := rfl
@[simp] theorem State.setGroup_tags (k : GroupKey) (g : Group) : (s.setGroup k g).tags = s.tags := rfl
@[simp] theorem State.setGroup_heldReds (k : GroupKey) (g : Group) : (s.setGroup k g).heldReds = s.heldReds := rfl
@[simp] theorem State.setGroup_launches (k : GroupKey) (g : Group) : (s.setGroup k g).launches = s.launches := rfl
@[simp] theorem State.setGroup_warps (k : GroupKey) (g : Group) : (s.setGroup k g).warps = s.warps := rfl
@[simp] theorem State.setGroup_bars (k : GroupKey) (g : Group) : (s.setGroup k g).bars = s.bars := rfl
@[simp] theorem State.setGroup_cores (k : GroupKey) (g : Group) : (s.setGroup k g).cores = s.cores := rfl
@[simp] theorem State.setGroup_dies (k : GroupKey) (g : Group) : (s.setGroup k g).dies = s.dies := rfl
@[simp] theorem State.setGroup_front (k : GroupKey) (g : Group) : (s.setGroup k g).front = s.front := rfl
@[simp] theorem State.setGroup_tlbi (k : GroupKey) (g : Group) : (s.setGroup k g).tlbi = s.tlbi := rfl
@[simp] theorem State.setGroup_farTable (k : GroupKey) (g : Group) : (s.setGroup k g).farTable = s.farTable := rfl
@[simp] theorem State.setGroup_farOut (k : GroupKey) (g : Group) : (s.setGroup k g).farOut = s.farOut := rfl
@[simp] theorem State.setGroup_farFailed (k : GroupKey) (g : Group) : (s.setGroup k g).farFailed = s.farFailed := rfl
@[simp] theorem State.setGroup_retirements (k : GroupKey) (g : Group) : (s.setGroup k g).retirements = s.retirements := rfl
@[simp] theorem State.setGroup_retiring (k : GroupKey) (g : Group) : (s.setGroup k g).retiring = s.retiring := rfl
@[simp] theorem State.setGroup_movingToS2 (k : GroupKey) (g : Group) : (s.setGroup k g).movingToS2 = s.movingToS2 := rfl
@[simp] theorem State.setGroup_retirementMap (k : GroupKey) (g : Group) : (s.setGroup k g).retirementMap = s.retirementMap := rfl
@[simp] theorem State.setGroup_domid (k : GroupKey) (g : Group) : (s.setGroup k g).domid = s.domid := rfl
@[simp] theorem State.setGroup_onModule (k : GroupKey) (g : Group) : (s.setGroup k g).onModule = s.onModule := rfl
@[simp] theorem State.setGroup_level (k : GroupKey) (g : Group) : (s.setGroup k g).level = s.level := rfl
@[simp] theorem State.setGroup_clusters (k : GroupKey) (g : Group) : (s.setGroup k g).clusters = s.clusters := rfl
@[simp] theorem State.setGroup_grid (k : GroupKey) (g : Group) : (s.setGroup k g).grid = s.grid := rfl
@[simp] theorem State.setGroup_inject (k : GroupKey) (g : Group) : (s.setGroup k g).inject = s.inject := rfl
@[simp] theorem State.setGroup_ck (k : GroupKey) (g : Group) : (s.setGroup k g).ck = s.ck := rfl
@[simp] theorem State.setGroup_boot (k : GroupKey) (g : Group) : (s.setGroup k g).boot = s.boot := rfl
@[simp] theorem State.setGroup_router (k : GroupKey) (g : Group) : (s.setGroup k g).router = s.router := rfl
@[simp] theorem State.setGroup_host (k : GroupKey) (g : Group) : (s.setGroup k g).host = s.host := rfl
@[simp] theorem State.setGroup_flows (k : GroupKey) (g : Group) : (s.setGroup k g).flows = s.flows := rfl
@[simp] theorem State.setGroup_inflows (k : GroupKey) (g : Group) : (s.setGroup k g).inflows = s.inflows := rfl
@[simp] theorem State.setGroup_flash (k : GroupKey) (g : Group) : (s.setGroup k g).flash = s.flash := rfl
@[simp] theorem State.setGroup_out (k : GroupKey) (g : Group) : (s.setGroup k g).out = s.out := rfl

@[simp] theorem State.modGroup_tick (k : GroupKey) (fn : Group → Group) : (s.modGroup k fn).tick = s.tick := by unfold State.modGroup; split <;> rfl
@[simp] theorem State.modGroup_resetTick (k : GroupKey) (fn : Group → Group) : (s.modGroup k fn).resetTick = s.resetTick := by unfold State.modGroup; split <;> rfl
@[simp] theorem State.modGroup_agenda (k : GroupKey) (fn : Group → Group) : (s.modGroup k fn).agenda = s.agenda := by unfold State.modGroup; split <;> rfl
@[simp] theorem State.modGroup_issue (k : GroupKey) (fn : Group → Group) : (s.modGroup k fn).issue = s.issue := by unfold State.modGroup; split <;> rfl
@[simp] theorem State.modGroup_mem (k : GroupKey) (fn : Group → Group) : (s.modGroup k fn).mem = s.mem := by unfold State.modGroup; split <;> rfl
@[simp] theorem State.modGroup_poison (k : GroupKey) (fn : Group → Group) : (s.modGroup k fn).poison = s.poison := by unfold State.modGroup; split <;> rfl
@[simp] theorem State.modGroup_lines (k : GroupKey) (fn : Group → Group) : (s.modGroup k fn).lines = s.lines := by unfold State.modGroup; split <;> rfl
@[simp] theorem State.modGroup_tags (k : GroupKey) (fn : Group → Group) : (s.modGroup k fn).tags = s.tags := by unfold State.modGroup; split <;> rfl
@[simp] theorem State.modGroup_heldReds (k : GroupKey) (fn : Group → Group) : (s.modGroup k fn).heldReds = s.heldReds := by unfold State.modGroup; split <;> rfl
@[simp] theorem State.modGroup_launches (k : GroupKey) (fn : Group → Group) : (s.modGroup k fn).launches = s.launches := by unfold State.modGroup; split <;> rfl
@[simp] theorem State.modGroup_warps (k : GroupKey) (fn : Group → Group) : (s.modGroup k fn).warps = s.warps := by unfold State.modGroup; split <;> rfl
@[simp] theorem State.modGroup_bars (k : GroupKey) (fn : Group → Group) : (s.modGroup k fn).bars = s.bars := by unfold State.modGroup; split <;> rfl
@[simp] theorem State.modGroup_cores (k : GroupKey) (fn : Group → Group) : (s.modGroup k fn).cores = s.cores := by unfold State.modGroup; split <;> rfl
@[simp] theorem State.modGroup_dies (k : GroupKey) (fn : Group → Group) : (s.modGroup k fn).dies = s.dies := by unfold State.modGroup; split <;> rfl
@[simp] theorem State.modGroup_front (k : GroupKey) (fn : Group → Group) : (s.modGroup k fn).front = s.front := by unfold State.modGroup; split <;> rfl
@[simp] theorem State.modGroup_tlbi (k : GroupKey) (fn : Group → Group) : (s.modGroup k fn).tlbi = s.tlbi := by unfold State.modGroup; split <;> rfl
@[simp] theorem State.modGroup_farTable (k : GroupKey) (fn : Group → Group) : (s.modGroup k fn).farTable = s.farTable := by unfold State.modGroup; split <;> rfl
@[simp] theorem State.modGroup_farOut (k : GroupKey) (fn : Group → Group) : (s.modGroup k fn).farOut = s.farOut := by unfold State.modGroup; split <;> rfl
@[simp] theorem State.modGroup_farFailed (k : GroupKey) (fn : Group → Group) : (s.modGroup k fn).farFailed = s.farFailed := by unfold State.modGroup; split <;> rfl
@[simp] theorem State.modGroup_retirements (k : GroupKey) (fn : Group → Group) : (s.modGroup k fn).retirements = s.retirements := by unfold State.modGroup; split <;> rfl
@[simp] theorem State.modGroup_retiring (k : GroupKey) (fn : Group → Group) : (s.modGroup k fn).retiring = s.retiring := by unfold State.modGroup; split <;> rfl
@[simp] theorem State.modGroup_movingToS2 (k : GroupKey) (fn : Group → Group) : (s.modGroup k fn).movingToS2 = s.movingToS2 := by unfold State.modGroup; split <;> rfl
@[simp] theorem State.modGroup_retirementMap (k : GroupKey) (fn : Group → Group) : (s.modGroup k fn).retirementMap = s.retirementMap := by unfold State.modGroup; split <;> rfl
@[simp] theorem State.modGroup_domid (k : GroupKey) (fn : Group → Group) : (s.modGroup k fn).domid = s.domid := by unfold State.modGroup; split <;> rfl
@[simp] theorem State.modGroup_onModule (k : GroupKey) (fn : Group → Group) : (s.modGroup k fn).onModule = s.onModule := by unfold State.modGroup; split <;> rfl
@[simp] theorem State.modGroup_level (k : GroupKey) (fn : Group → Group) : (s.modGroup k fn).level = s.level := by unfold State.modGroup; split <;> rfl
@[simp] theorem State.modGroup_clusters (k : GroupKey) (fn : Group → Group) : (s.modGroup k fn).clusters = s.clusters := by unfold State.modGroup; split <;> rfl
@[simp] theorem State.modGroup_grid (k : GroupKey) (fn : Group → Group) : (s.modGroup k fn).grid = s.grid := by unfold State.modGroup; split <;> rfl
@[simp] theorem State.modGroup_inject (k : GroupKey) (fn : Group → Group) : (s.modGroup k fn).inject = s.inject := by unfold State.modGroup; split <;> rfl
@[simp] theorem State.modGroup_ck (k : GroupKey) (fn : Group → Group) : (s.modGroup k fn).ck = s.ck := by unfold State.modGroup; split <;> rfl
@[simp] theorem State.modGroup_boot (k : GroupKey) (fn : Group → Group) : (s.modGroup k fn).boot = s.boot := by unfold State.modGroup; split <;> rfl
@[simp] theorem State.modGroup_router (k : GroupKey) (fn : Group → Group) : (s.modGroup k fn).router = s.router := by unfold State.modGroup; split <;> rfl
@[simp] theorem State.modGroup_host (k : GroupKey) (fn : Group → Group) : (s.modGroup k fn).host = s.host := by unfold State.modGroup; split <;> rfl
@[simp] theorem State.modGroup_flows (k : GroupKey) (fn : Group → Group) : (s.modGroup k fn).flows = s.flows := by unfold State.modGroup; split <;> rfl
@[simp] theorem State.modGroup_inflows (k : GroupKey) (fn : Group → Group) : (s.modGroup k fn).inflows = s.inflows := by unfold State.modGroup; split <;> rfl
@[simp] theorem State.modGroup_flash (k : GroupKey) (fn : Group → Group) : (s.modGroup k fn).flash = s.flash := by unfold State.modGroup; split <;> rfl
@[simp] theorem State.modGroup_out (k : GroupKey) (fn : Group → Group) : (s.modGroup k fn).out = s.out := by unfold State.modGroup; split <;> rfl

/-! ## setLaunch and modLaunch -/

@[simp] theorem State.setLaunch_tick (k : Word) (l : Launch) : (s.setLaunch k l).tick = s.tick := rfl
@[simp] theorem State.setLaunch_resetTick (k : Word) (l : Launch) : (s.setLaunch k l).resetTick = s.resetTick := rfl
@[simp] theorem State.setLaunch_agenda (k : Word) (l : Launch) : (s.setLaunch k l).agenda = s.agenda := rfl
@[simp] theorem State.setLaunch_issue (k : Word) (l : Launch) : (s.setLaunch k l).issue = s.issue := rfl
@[simp] theorem State.setLaunch_mem (k : Word) (l : Launch) : (s.setLaunch k l).mem = s.mem := rfl
@[simp] theorem State.setLaunch_poison (k : Word) (l : Launch) : (s.setLaunch k l).poison = s.poison := rfl
@[simp] theorem State.setLaunch_lines (k : Word) (l : Launch) : (s.setLaunch k l).lines = s.lines := rfl
@[simp] theorem State.setLaunch_tags (k : Word) (l : Launch) : (s.setLaunch k l).tags = s.tags := rfl
@[simp] theorem State.setLaunch_heldReds (k : Word) (l : Launch) : (s.setLaunch k l).heldReds = s.heldReds := rfl
@[simp] theorem State.setLaunch_groups (k : Word) (l : Launch) : (s.setLaunch k l).groups = s.groups := rfl
@[simp] theorem State.setLaunch_warps (k : Word) (l : Launch) : (s.setLaunch k l).warps = s.warps := rfl
@[simp] theorem State.setLaunch_bars (k : Word) (l : Launch) : (s.setLaunch k l).bars = s.bars := rfl
@[simp] theorem State.setLaunch_cores (k : Word) (l : Launch) : (s.setLaunch k l).cores = s.cores := rfl
@[simp] theorem State.setLaunch_dies (k : Word) (l : Launch) : (s.setLaunch k l).dies = s.dies := rfl
@[simp] theorem State.setLaunch_front (k : Word) (l : Launch) : (s.setLaunch k l).front = s.front := rfl
@[simp] theorem State.setLaunch_tlbi (k : Word) (l : Launch) : (s.setLaunch k l).tlbi = s.tlbi := rfl
@[simp] theorem State.setLaunch_farTable (k : Word) (l : Launch) : (s.setLaunch k l).farTable = s.farTable := rfl
@[simp] theorem State.setLaunch_farOut (k : Word) (l : Launch) : (s.setLaunch k l).farOut = s.farOut := rfl
@[simp] theorem State.setLaunch_farFailed (k : Word) (l : Launch) : (s.setLaunch k l).farFailed = s.farFailed := rfl
@[simp] theorem State.setLaunch_retirements (k : Word) (l : Launch) : (s.setLaunch k l).retirements = s.retirements := rfl
@[simp] theorem State.setLaunch_retiring (k : Word) (l : Launch) : (s.setLaunch k l).retiring = s.retiring := rfl
@[simp] theorem State.setLaunch_movingToS2 (k : Word) (l : Launch) : (s.setLaunch k l).movingToS2 = s.movingToS2 := rfl
@[simp] theorem State.setLaunch_retirementMap (k : Word) (l : Launch) : (s.setLaunch k l).retirementMap = s.retirementMap := rfl
@[simp] theorem State.setLaunch_domid (k : Word) (l : Launch) : (s.setLaunch k l).domid = s.domid := rfl
@[simp] theorem State.setLaunch_onModule (k : Word) (l : Launch) : (s.setLaunch k l).onModule = s.onModule := rfl
@[simp] theorem State.setLaunch_level (k : Word) (l : Launch) : (s.setLaunch k l).level = s.level := rfl
@[simp] theorem State.setLaunch_clusters (k : Word) (l : Launch) : (s.setLaunch k l).clusters = s.clusters := rfl
@[simp] theorem State.setLaunch_grid (k : Word) (l : Launch) : (s.setLaunch k l).grid = s.grid := rfl
@[simp] theorem State.setLaunch_inject (k : Word) (l : Launch) : (s.setLaunch k l).inject = s.inject := rfl
@[simp] theorem State.setLaunch_ck (k : Word) (l : Launch) : (s.setLaunch k l).ck = s.ck := rfl
@[simp] theorem State.setLaunch_boot (k : Word) (l : Launch) : (s.setLaunch k l).boot = s.boot := rfl
@[simp] theorem State.setLaunch_router (k : Word) (l : Launch) : (s.setLaunch k l).router = s.router := rfl
@[simp] theorem State.setLaunch_host (k : Word) (l : Launch) : (s.setLaunch k l).host = s.host := rfl
@[simp] theorem State.setLaunch_flows (k : Word) (l : Launch) : (s.setLaunch k l).flows = s.flows := rfl
@[simp] theorem State.setLaunch_inflows (k : Word) (l : Launch) : (s.setLaunch k l).inflows = s.inflows := rfl
@[simp] theorem State.setLaunch_flash (k : Word) (l : Launch) : (s.setLaunch k l).flash = s.flash := rfl
@[simp] theorem State.setLaunch_out (k : Word) (l : Launch) : (s.setLaunch k l).out = s.out := rfl

@[simp] theorem State.modLaunch_tick (k : Word) (fn : Launch → Launch) : (s.modLaunch k fn).tick = s.tick := by unfold State.modLaunch; split <;> rfl
@[simp] theorem State.modLaunch_resetTick (k : Word) (fn : Launch → Launch) : (s.modLaunch k fn).resetTick = s.resetTick := by unfold State.modLaunch; split <;> rfl
@[simp] theorem State.modLaunch_agenda (k : Word) (fn : Launch → Launch) : (s.modLaunch k fn).agenda = s.agenda := by unfold State.modLaunch; split <;> rfl
@[simp] theorem State.modLaunch_issue (k : Word) (fn : Launch → Launch) : (s.modLaunch k fn).issue = s.issue := by unfold State.modLaunch; split <;> rfl
@[simp] theorem State.modLaunch_mem (k : Word) (fn : Launch → Launch) : (s.modLaunch k fn).mem = s.mem := by unfold State.modLaunch; split <;> rfl
@[simp] theorem State.modLaunch_poison (k : Word) (fn : Launch → Launch) : (s.modLaunch k fn).poison = s.poison := by unfold State.modLaunch; split <;> rfl
@[simp] theorem State.modLaunch_lines (k : Word) (fn : Launch → Launch) : (s.modLaunch k fn).lines = s.lines := by unfold State.modLaunch; split <;> rfl
@[simp] theorem State.modLaunch_tags (k : Word) (fn : Launch → Launch) : (s.modLaunch k fn).tags = s.tags := by unfold State.modLaunch; split <;> rfl
@[simp] theorem State.modLaunch_heldReds (k : Word) (fn : Launch → Launch) : (s.modLaunch k fn).heldReds = s.heldReds := by unfold State.modLaunch; split <;> rfl
@[simp] theorem State.modLaunch_groups (k : Word) (fn : Launch → Launch) : (s.modLaunch k fn).groups = s.groups := by unfold State.modLaunch; split <;> rfl
@[simp] theorem State.modLaunch_warps (k : Word) (fn : Launch → Launch) : (s.modLaunch k fn).warps = s.warps := by unfold State.modLaunch; split <;> rfl
@[simp] theorem State.modLaunch_bars (k : Word) (fn : Launch → Launch) : (s.modLaunch k fn).bars = s.bars := by unfold State.modLaunch; split <;> rfl
@[simp] theorem State.modLaunch_cores (k : Word) (fn : Launch → Launch) : (s.modLaunch k fn).cores = s.cores := by unfold State.modLaunch; split <;> rfl
@[simp] theorem State.modLaunch_dies (k : Word) (fn : Launch → Launch) : (s.modLaunch k fn).dies = s.dies := by unfold State.modLaunch; split <;> rfl
@[simp] theorem State.modLaunch_front (k : Word) (fn : Launch → Launch) : (s.modLaunch k fn).front = s.front := by unfold State.modLaunch; split <;> rfl
@[simp] theorem State.modLaunch_tlbi (k : Word) (fn : Launch → Launch) : (s.modLaunch k fn).tlbi = s.tlbi := by unfold State.modLaunch; split <;> rfl
@[simp] theorem State.modLaunch_farTable (k : Word) (fn : Launch → Launch) : (s.modLaunch k fn).farTable = s.farTable := by unfold State.modLaunch; split <;> rfl
@[simp] theorem State.modLaunch_farOut (k : Word) (fn : Launch → Launch) : (s.modLaunch k fn).farOut = s.farOut := by unfold State.modLaunch; split <;> rfl
@[simp] theorem State.modLaunch_farFailed (k : Word) (fn : Launch → Launch) : (s.modLaunch k fn).farFailed = s.farFailed := by unfold State.modLaunch; split <;> rfl
@[simp] theorem State.modLaunch_retirements (k : Word) (fn : Launch → Launch) : (s.modLaunch k fn).retirements = s.retirements := by unfold State.modLaunch; split <;> rfl
@[simp] theorem State.modLaunch_retiring (k : Word) (fn : Launch → Launch) : (s.modLaunch k fn).retiring = s.retiring := by unfold State.modLaunch; split <;> rfl
@[simp] theorem State.modLaunch_movingToS2 (k : Word) (fn : Launch → Launch) : (s.modLaunch k fn).movingToS2 = s.movingToS2 := by unfold State.modLaunch; split <;> rfl
@[simp] theorem State.modLaunch_retirementMap (k : Word) (fn : Launch → Launch) : (s.modLaunch k fn).retirementMap = s.retirementMap := by unfold State.modLaunch; split <;> rfl
@[simp] theorem State.modLaunch_domid (k : Word) (fn : Launch → Launch) : (s.modLaunch k fn).domid = s.domid := by unfold State.modLaunch; split <;> rfl
@[simp] theorem State.modLaunch_onModule (k : Word) (fn : Launch → Launch) : (s.modLaunch k fn).onModule = s.onModule := by unfold State.modLaunch; split <;> rfl
@[simp] theorem State.modLaunch_level (k : Word) (fn : Launch → Launch) : (s.modLaunch k fn).level = s.level := by unfold State.modLaunch; split <;> rfl
@[simp] theorem State.modLaunch_clusters (k : Word) (fn : Launch → Launch) : (s.modLaunch k fn).clusters = s.clusters := by unfold State.modLaunch; split <;> rfl
@[simp] theorem State.modLaunch_grid (k : Word) (fn : Launch → Launch) : (s.modLaunch k fn).grid = s.grid := by unfold State.modLaunch; split <;> rfl
@[simp] theorem State.modLaunch_inject (k : Word) (fn : Launch → Launch) : (s.modLaunch k fn).inject = s.inject := by unfold State.modLaunch; split <;> rfl
@[simp] theorem State.modLaunch_ck (k : Word) (fn : Launch → Launch) : (s.modLaunch k fn).ck = s.ck := by unfold State.modLaunch; split <;> rfl
@[simp] theorem State.modLaunch_boot (k : Word) (fn : Launch → Launch) : (s.modLaunch k fn).boot = s.boot := by unfold State.modLaunch; split <;> rfl
@[simp] theorem State.modLaunch_router (k : Word) (fn : Launch → Launch) : (s.modLaunch k fn).router = s.router := by unfold State.modLaunch; split <;> rfl
@[simp] theorem State.modLaunch_host (k : Word) (fn : Launch → Launch) : (s.modLaunch k fn).host = s.host := by unfold State.modLaunch; split <;> rfl
@[simp] theorem State.modLaunch_flows (k : Word) (fn : Launch → Launch) : (s.modLaunch k fn).flows = s.flows := by unfold State.modLaunch; split <;> rfl
@[simp] theorem State.modLaunch_inflows (k : Word) (fn : Launch → Launch) : (s.modLaunch k fn).inflows = s.inflows := by unfold State.modLaunch; split <;> rfl
@[simp] theorem State.modLaunch_flash (k : Word) (fn : Launch → Launch) : (s.modLaunch k fn).flash = s.flash := by unfold State.modLaunch; split <;> rfl
@[simp] theorem State.modLaunch_out (k : Word) (fn : Launch → Launch) : (s.modLaunch k fn).out = s.out := by unfold State.modLaunch; split <;> rfl

/-! ## setCore and modCore -/

@[simp] theorem State.setCore_tick (c : Nat) (x : CoreState) : (s.setCore c x).tick = s.tick := rfl
@[simp] theorem State.setCore_resetTick (c : Nat) (x : CoreState) : (s.setCore c x).resetTick = s.resetTick := rfl
@[simp] theorem State.setCore_agenda (c : Nat) (x : CoreState) : (s.setCore c x).agenda = s.agenda := rfl
@[simp] theorem State.setCore_issue (c : Nat) (x : CoreState) : (s.setCore c x).issue = s.issue := rfl
@[simp] theorem State.setCore_mem (c : Nat) (x : CoreState) : (s.setCore c x).mem = s.mem := rfl
@[simp] theorem State.setCore_poison (c : Nat) (x : CoreState) : (s.setCore c x).poison = s.poison := rfl
@[simp] theorem State.setCore_lines (c : Nat) (x : CoreState) : (s.setCore c x).lines = s.lines := rfl
@[simp] theorem State.setCore_tags (c : Nat) (x : CoreState) : (s.setCore c x).tags = s.tags := rfl
@[simp] theorem State.setCore_heldReds (c : Nat) (x : CoreState) : (s.setCore c x).heldReds = s.heldReds := rfl
@[simp] theorem State.setCore_launches (c : Nat) (x : CoreState) : (s.setCore c x).launches = s.launches := rfl
@[simp] theorem State.setCore_groups (c : Nat) (x : CoreState) : (s.setCore c x).groups = s.groups := rfl
@[simp] theorem State.setCore_warps (c : Nat) (x : CoreState) : (s.setCore c x).warps = s.warps := rfl
@[simp] theorem State.setCore_bars (c : Nat) (x : CoreState) : (s.setCore c x).bars = s.bars := rfl
@[simp] theorem State.setCore_dies (c : Nat) (x : CoreState) : (s.setCore c x).dies = s.dies := rfl
@[simp] theorem State.setCore_front (c : Nat) (x : CoreState) : (s.setCore c x).front = s.front := rfl
@[simp] theorem State.setCore_tlbi (c : Nat) (x : CoreState) : (s.setCore c x).tlbi = s.tlbi := rfl
@[simp] theorem State.setCore_farTable (c : Nat) (x : CoreState) : (s.setCore c x).farTable = s.farTable := rfl
@[simp] theorem State.setCore_farOut (c : Nat) (x : CoreState) : (s.setCore c x).farOut = s.farOut := rfl
@[simp] theorem State.setCore_farFailed (c : Nat) (x : CoreState) : (s.setCore c x).farFailed = s.farFailed := rfl
@[simp] theorem State.setCore_retirements (c : Nat) (x : CoreState) : (s.setCore c x).retirements = s.retirements := rfl
@[simp] theorem State.setCore_retiring (c : Nat) (x : CoreState) : (s.setCore c x).retiring = s.retiring := rfl
@[simp] theorem State.setCore_movingToS2 (c : Nat) (x : CoreState) : (s.setCore c x).movingToS2 = s.movingToS2 := rfl
@[simp] theorem State.setCore_retirementMap (c : Nat) (x : CoreState) : (s.setCore c x).retirementMap = s.retirementMap := rfl
@[simp] theorem State.setCore_domid (c : Nat) (x : CoreState) : (s.setCore c x).domid = s.domid := rfl
@[simp] theorem State.setCore_onModule (c : Nat) (x : CoreState) : (s.setCore c x).onModule = s.onModule := rfl
@[simp] theorem State.setCore_level (c : Nat) (x : CoreState) : (s.setCore c x).level = s.level := rfl
@[simp] theorem State.setCore_clusters (c : Nat) (x : CoreState) : (s.setCore c x).clusters = s.clusters := rfl
@[simp] theorem State.setCore_grid (c : Nat) (x : CoreState) : (s.setCore c x).grid = s.grid := rfl
@[simp] theorem State.setCore_inject (c : Nat) (x : CoreState) : (s.setCore c x).inject = s.inject := rfl
@[simp] theorem State.setCore_ck (c : Nat) (x : CoreState) : (s.setCore c x).ck = s.ck := rfl
@[simp] theorem State.setCore_boot (c : Nat) (x : CoreState) : (s.setCore c x).boot = s.boot := rfl
@[simp] theorem State.setCore_router (c : Nat) (x : CoreState) : (s.setCore c x).router = s.router := rfl
@[simp] theorem State.setCore_host (c : Nat) (x : CoreState) : (s.setCore c x).host = s.host := rfl
@[simp] theorem State.setCore_flows (c : Nat) (x : CoreState) : (s.setCore c x).flows = s.flows := rfl
@[simp] theorem State.setCore_inflows (c : Nat) (x : CoreState) : (s.setCore c x).inflows = s.inflows := rfl
@[simp] theorem State.setCore_flash (c : Nat) (x : CoreState) : (s.setCore c x).flash = s.flash := rfl
@[simp] theorem State.setCore_out (c : Nat) (x : CoreState) : (s.setCore c x).out = s.out := rfl

@[simp] theorem State.modCore_tick (c : Nat) (fn : CoreState → CoreState) : (s.modCore c fn).tick = s.tick := rfl
@[simp] theorem State.modCore_resetTick (c : Nat) (fn : CoreState → CoreState) : (s.modCore c fn).resetTick = s.resetTick := rfl
@[simp] theorem State.modCore_agenda (c : Nat) (fn : CoreState → CoreState) : (s.modCore c fn).agenda = s.agenda := rfl
@[simp] theorem State.modCore_issue (c : Nat) (fn : CoreState → CoreState) : (s.modCore c fn).issue = s.issue := rfl
@[simp] theorem State.modCore_mem (c : Nat) (fn : CoreState → CoreState) : (s.modCore c fn).mem = s.mem := rfl
@[simp] theorem State.modCore_poison (c : Nat) (fn : CoreState → CoreState) : (s.modCore c fn).poison = s.poison := rfl
@[simp] theorem State.modCore_lines (c : Nat) (fn : CoreState → CoreState) : (s.modCore c fn).lines = s.lines := rfl
@[simp] theorem State.modCore_tags (c : Nat) (fn : CoreState → CoreState) : (s.modCore c fn).tags = s.tags := rfl
@[simp] theorem State.modCore_heldReds (c : Nat) (fn : CoreState → CoreState) : (s.modCore c fn).heldReds = s.heldReds := rfl
@[simp] theorem State.modCore_launches (c : Nat) (fn : CoreState → CoreState) : (s.modCore c fn).launches = s.launches := rfl
@[simp] theorem State.modCore_groups (c : Nat) (fn : CoreState → CoreState) : (s.modCore c fn).groups = s.groups := rfl
@[simp] theorem State.modCore_warps (c : Nat) (fn : CoreState → CoreState) : (s.modCore c fn).warps = s.warps := rfl
@[simp] theorem State.modCore_bars (c : Nat) (fn : CoreState → CoreState) : (s.modCore c fn).bars = s.bars := rfl
@[simp] theorem State.modCore_dies (c : Nat) (fn : CoreState → CoreState) : (s.modCore c fn).dies = s.dies := rfl
@[simp] theorem State.modCore_front (c : Nat) (fn : CoreState → CoreState) : (s.modCore c fn).front = s.front := rfl
@[simp] theorem State.modCore_tlbi (c : Nat) (fn : CoreState → CoreState) : (s.modCore c fn).tlbi = s.tlbi := rfl
@[simp] theorem State.modCore_farTable (c : Nat) (fn : CoreState → CoreState) : (s.modCore c fn).farTable = s.farTable := rfl
@[simp] theorem State.modCore_farOut (c : Nat) (fn : CoreState → CoreState) : (s.modCore c fn).farOut = s.farOut := rfl
@[simp] theorem State.modCore_farFailed (c : Nat) (fn : CoreState → CoreState) : (s.modCore c fn).farFailed = s.farFailed := rfl
@[simp] theorem State.modCore_retirements (c : Nat) (fn : CoreState → CoreState) : (s.modCore c fn).retirements = s.retirements := rfl
@[simp] theorem State.modCore_retiring (c : Nat) (fn : CoreState → CoreState) : (s.modCore c fn).retiring = s.retiring := rfl
@[simp] theorem State.modCore_movingToS2 (c : Nat) (fn : CoreState → CoreState) : (s.modCore c fn).movingToS2 = s.movingToS2 := rfl
@[simp] theorem State.modCore_retirementMap (c : Nat) (fn : CoreState → CoreState) : (s.modCore c fn).retirementMap = s.retirementMap := rfl
@[simp] theorem State.modCore_domid (c : Nat) (fn : CoreState → CoreState) : (s.modCore c fn).domid = s.domid := rfl
@[simp] theorem State.modCore_onModule (c : Nat) (fn : CoreState → CoreState) : (s.modCore c fn).onModule = s.onModule := rfl
@[simp] theorem State.modCore_level (c : Nat) (fn : CoreState → CoreState) : (s.modCore c fn).level = s.level := rfl
@[simp] theorem State.modCore_clusters (c : Nat) (fn : CoreState → CoreState) : (s.modCore c fn).clusters = s.clusters := rfl
@[simp] theorem State.modCore_grid (c : Nat) (fn : CoreState → CoreState) : (s.modCore c fn).grid = s.grid := rfl
@[simp] theorem State.modCore_inject (c : Nat) (fn : CoreState → CoreState) : (s.modCore c fn).inject = s.inject := rfl
@[simp] theorem State.modCore_ck (c : Nat) (fn : CoreState → CoreState) : (s.modCore c fn).ck = s.ck := rfl
@[simp] theorem State.modCore_boot (c : Nat) (fn : CoreState → CoreState) : (s.modCore c fn).boot = s.boot := rfl
@[simp] theorem State.modCore_router (c : Nat) (fn : CoreState → CoreState) : (s.modCore c fn).router = s.router := rfl
@[simp] theorem State.modCore_host (c : Nat) (fn : CoreState → CoreState) : (s.modCore c fn).host = s.host := rfl
@[simp] theorem State.modCore_flows (c : Nat) (fn : CoreState → CoreState) : (s.modCore c fn).flows = s.flows := rfl
@[simp] theorem State.modCore_inflows (c : Nat) (fn : CoreState → CoreState) : (s.modCore c fn).inflows = s.inflows := rfl
@[simp] theorem State.modCore_flash (c : Nat) (fn : CoreState → CoreState) : (s.modCore c fn).flash = s.flash := rfl
@[simp] theorem State.modCore_out (c : Nat) (fn : CoreState → CoreState) : (s.modCore c fn).out = s.out := rfl

/-! ## setDie and modDie -/

@[simp] theorem State.setDie_tick (d : Nat) (x : DieState) : (s.setDie d x).tick = s.tick := rfl
@[simp] theorem State.setDie_resetTick (d : Nat) (x : DieState) : (s.setDie d x).resetTick = s.resetTick := rfl
@[simp] theorem State.setDie_agenda (d : Nat) (x : DieState) : (s.setDie d x).agenda = s.agenda := rfl
@[simp] theorem State.setDie_issue (d : Nat) (x : DieState) : (s.setDie d x).issue = s.issue := rfl
@[simp] theorem State.setDie_mem (d : Nat) (x : DieState) : (s.setDie d x).mem = s.mem := rfl
@[simp] theorem State.setDie_poison (d : Nat) (x : DieState) : (s.setDie d x).poison = s.poison := rfl
@[simp] theorem State.setDie_lines (d : Nat) (x : DieState) : (s.setDie d x).lines = s.lines := rfl
@[simp] theorem State.setDie_tags (d : Nat) (x : DieState) : (s.setDie d x).tags = s.tags := rfl
@[simp] theorem State.setDie_heldReds (d : Nat) (x : DieState) : (s.setDie d x).heldReds = s.heldReds := rfl
@[simp] theorem State.setDie_launches (d : Nat) (x : DieState) : (s.setDie d x).launches = s.launches := rfl
@[simp] theorem State.setDie_groups (d : Nat) (x : DieState) : (s.setDie d x).groups = s.groups := rfl
@[simp] theorem State.setDie_warps (d : Nat) (x : DieState) : (s.setDie d x).warps = s.warps := rfl
@[simp] theorem State.setDie_bars (d : Nat) (x : DieState) : (s.setDie d x).bars = s.bars := rfl
@[simp] theorem State.setDie_cores (d : Nat) (x : DieState) : (s.setDie d x).cores = s.cores := rfl
@[simp] theorem State.setDie_front (d : Nat) (x : DieState) : (s.setDie d x).front = s.front := rfl
@[simp] theorem State.setDie_tlbi (d : Nat) (x : DieState) : (s.setDie d x).tlbi = s.tlbi := rfl
@[simp] theorem State.setDie_farTable (d : Nat) (x : DieState) : (s.setDie d x).farTable = s.farTable := rfl
@[simp] theorem State.setDie_farOut (d : Nat) (x : DieState) : (s.setDie d x).farOut = s.farOut := rfl
@[simp] theorem State.setDie_farFailed (d : Nat) (x : DieState) : (s.setDie d x).farFailed = s.farFailed := rfl
@[simp] theorem State.setDie_retirements (d : Nat) (x : DieState) : (s.setDie d x).retirements = s.retirements := rfl
@[simp] theorem State.setDie_retiring (d : Nat) (x : DieState) : (s.setDie d x).retiring = s.retiring := rfl
@[simp] theorem State.setDie_movingToS2 (d : Nat) (x : DieState) : (s.setDie d x).movingToS2 = s.movingToS2 := rfl
@[simp] theorem State.setDie_retirementMap (d : Nat) (x : DieState) : (s.setDie d x).retirementMap = s.retirementMap := rfl
@[simp] theorem State.setDie_domid (d : Nat) (x : DieState) : (s.setDie d x).domid = s.domid := rfl
@[simp] theorem State.setDie_onModule (d : Nat) (x : DieState) : (s.setDie d x).onModule = s.onModule := rfl
@[simp] theorem State.setDie_level (d : Nat) (x : DieState) : (s.setDie d x).level = s.level := rfl
@[simp] theorem State.setDie_clusters (d : Nat) (x : DieState) : (s.setDie d x).clusters = s.clusters := rfl
@[simp] theorem State.setDie_grid (d : Nat) (x : DieState) : (s.setDie d x).grid = s.grid := rfl
@[simp] theorem State.setDie_inject (d : Nat) (x : DieState) : (s.setDie d x).inject = s.inject := rfl
@[simp] theorem State.setDie_ck (d : Nat) (x : DieState) : (s.setDie d x).ck = s.ck := rfl
@[simp] theorem State.setDie_boot (d : Nat) (x : DieState) : (s.setDie d x).boot = s.boot := rfl
@[simp] theorem State.setDie_router (d : Nat) (x : DieState) : (s.setDie d x).router = s.router := rfl
@[simp] theorem State.setDie_host (d : Nat) (x : DieState) : (s.setDie d x).host = s.host := rfl
@[simp] theorem State.setDie_flows (d : Nat) (x : DieState) : (s.setDie d x).flows = s.flows := rfl
@[simp] theorem State.setDie_inflows (d : Nat) (x : DieState) : (s.setDie d x).inflows = s.inflows := rfl
@[simp] theorem State.setDie_flash (d : Nat) (x : DieState) : (s.setDie d x).flash = s.flash := rfl
@[simp] theorem State.setDie_out (d : Nat) (x : DieState) : (s.setDie d x).out = s.out := rfl

@[simp] theorem State.modDie_tick (d : Nat) (fn : DieState → DieState) : (s.modDie d fn).tick = s.tick := rfl
@[simp] theorem State.modDie_resetTick (d : Nat) (fn : DieState → DieState) : (s.modDie d fn).resetTick = s.resetTick := rfl
@[simp] theorem State.modDie_agenda (d : Nat) (fn : DieState → DieState) : (s.modDie d fn).agenda = s.agenda := rfl
@[simp] theorem State.modDie_issue (d : Nat) (fn : DieState → DieState) : (s.modDie d fn).issue = s.issue := rfl
@[simp] theorem State.modDie_mem (d : Nat) (fn : DieState → DieState) : (s.modDie d fn).mem = s.mem := rfl
@[simp] theorem State.modDie_poison (d : Nat) (fn : DieState → DieState) : (s.modDie d fn).poison = s.poison := rfl
@[simp] theorem State.modDie_lines (d : Nat) (fn : DieState → DieState) : (s.modDie d fn).lines = s.lines := rfl
@[simp] theorem State.modDie_tags (d : Nat) (fn : DieState → DieState) : (s.modDie d fn).tags = s.tags := rfl
@[simp] theorem State.modDie_heldReds (d : Nat) (fn : DieState → DieState) : (s.modDie d fn).heldReds = s.heldReds := rfl
@[simp] theorem State.modDie_launches (d : Nat) (fn : DieState → DieState) : (s.modDie d fn).launches = s.launches := rfl
@[simp] theorem State.modDie_groups (d : Nat) (fn : DieState → DieState) : (s.modDie d fn).groups = s.groups := rfl
@[simp] theorem State.modDie_warps (d : Nat) (fn : DieState → DieState) : (s.modDie d fn).warps = s.warps := rfl
@[simp] theorem State.modDie_bars (d : Nat) (fn : DieState → DieState) : (s.modDie d fn).bars = s.bars := rfl
@[simp] theorem State.modDie_cores (d : Nat) (fn : DieState → DieState) : (s.modDie d fn).cores = s.cores := rfl
@[simp] theorem State.modDie_front (d : Nat) (fn : DieState → DieState) : (s.modDie d fn).front = s.front := rfl
@[simp] theorem State.modDie_tlbi (d : Nat) (fn : DieState → DieState) : (s.modDie d fn).tlbi = s.tlbi := rfl
@[simp] theorem State.modDie_farTable (d : Nat) (fn : DieState → DieState) : (s.modDie d fn).farTable = s.farTable := rfl
@[simp] theorem State.modDie_farOut (d : Nat) (fn : DieState → DieState) : (s.modDie d fn).farOut = s.farOut := rfl
@[simp] theorem State.modDie_farFailed (d : Nat) (fn : DieState → DieState) : (s.modDie d fn).farFailed = s.farFailed := rfl
@[simp] theorem State.modDie_retirements (d : Nat) (fn : DieState → DieState) : (s.modDie d fn).retirements = s.retirements := rfl
@[simp] theorem State.modDie_retiring (d : Nat) (fn : DieState → DieState) : (s.modDie d fn).retiring = s.retiring := rfl
@[simp] theorem State.modDie_movingToS2 (d : Nat) (fn : DieState → DieState) : (s.modDie d fn).movingToS2 = s.movingToS2 := rfl
@[simp] theorem State.modDie_retirementMap (d : Nat) (fn : DieState → DieState) : (s.modDie d fn).retirementMap = s.retirementMap := rfl
@[simp] theorem State.modDie_domid (d : Nat) (fn : DieState → DieState) : (s.modDie d fn).domid = s.domid := rfl
@[simp] theorem State.modDie_onModule (d : Nat) (fn : DieState → DieState) : (s.modDie d fn).onModule = s.onModule := rfl
@[simp] theorem State.modDie_level (d : Nat) (fn : DieState → DieState) : (s.modDie d fn).level = s.level := rfl
@[simp] theorem State.modDie_clusters (d : Nat) (fn : DieState → DieState) : (s.modDie d fn).clusters = s.clusters := rfl
@[simp] theorem State.modDie_grid (d : Nat) (fn : DieState → DieState) : (s.modDie d fn).grid = s.grid := rfl
@[simp] theorem State.modDie_inject (d : Nat) (fn : DieState → DieState) : (s.modDie d fn).inject = s.inject := rfl
@[simp] theorem State.modDie_ck (d : Nat) (fn : DieState → DieState) : (s.modDie d fn).ck = s.ck := rfl
@[simp] theorem State.modDie_boot (d : Nat) (fn : DieState → DieState) : (s.modDie d fn).boot = s.boot := rfl
@[simp] theorem State.modDie_router (d : Nat) (fn : DieState → DieState) : (s.modDie d fn).router = s.router := rfl
@[simp] theorem State.modDie_host (d : Nat) (fn : DieState → DieState) : (s.modDie d fn).host = s.host := rfl
@[simp] theorem State.modDie_flows (d : Nat) (fn : DieState → DieState) : (s.modDie d fn).flows = s.flows := rfl
@[simp] theorem State.modDie_inflows (d : Nat) (fn : DieState → DieState) : (s.modDie d fn).inflows = s.inflows := rfl
@[simp] theorem State.modDie_flash (d : Nat) (fn : DieState → DieState) : (s.modDie d fn).flash = s.flash := rfl
@[simp] theorem State.modDie_out (d : Nat) (fn : DieState → DieState) : (s.modDie d fn).out = s.out := rfl

/-! ## Lookups after updates -/

@[simp] theorem State.setWarp_warp?_self (k : WarpKey) (w : Warp) : (s.setWarp k w).warp? k = some w := kget?_kput_self ..
theorem State.setWarp_warp?_of_ne {k j : WarpKey} (w : Warp) (h : j ≠ k) : (s.setWarp k w).warp? j = s.warp? j :=
  kget?_kput_of_ne _ _ h
@[simp] theorem State.setGroup_warp? (k : GroupKey) (g : Group) (j : WarpKey) : (s.setGroup k g).warp? j = s.warp? j := rfl
@[simp] theorem State.setLaunch_warp? (k : Word) (l : Launch) (j : WarpKey) : (s.setLaunch k l).warp? j = s.warp? j := rfl
@[simp] theorem State.setCore_warp? (c : Nat) (x : CoreState) (j : WarpKey) : (s.setCore c x).warp? j = s.warp? j := rfl
@[simp] theorem State.setDie_warp? (d : Nat) (x : DieState) (j : WarpKey) : (s.setDie d x).warp? j = s.warp? j := rfl
@[simp] theorem State.modGroup_warp? (k : GroupKey) (fn : Group → Group) (j : WarpKey) :
    (s.modGroup k fn).warp? j = s.warp? j := by simp [State.warp?]
@[simp] theorem State.modLaunch_warp? (k : Word) (fn : Launch → Launch) (j : WarpKey) :
    (s.modLaunch k fn).warp? j = s.warp? j := by simp [State.warp?]
@[simp] theorem State.modCore_warp? (c : Nat) (fn : CoreState → CoreState) (j : WarpKey) :
    (s.modCore c fn).warp? j = s.warp? j := rfl
@[simp] theorem State.modDie_warp? (d : Nat) (fn : DieState → DieState) (j : WarpKey) :
    (s.modDie d fn).warp? j = s.warp? j := rfl
theorem State.modWarp_of {k : WarpKey} {w : Warp} (fn : Warp → Warp) (h : s.warp? k = some w) :
    s.modWarp k fn = s.setWarp k (fn w) := by simp [State.modWarp, h]
theorem State.modWarp_warp? (k j : WarpKey) (fn : Warp → Warp) :
    (s.modWarp k fn).warp? j = if j = k then (s.warp? j).map fn else s.warp? j := by
  unfold State.modWarp
  split
  · rename_i w h
    split
    · rename_i e; subst e; simp [h]
    · rename_i e; exact s.setWarp_warp?_of_ne _ e
  · rename_i h
    split
    · rename_i e; subst e; simp [h]
    · rfl
@[simp] theorem State.setWarp_group? (k : WarpKey) (w : Warp) (g : GroupKey) : (s.setWarp k w).group? g = s.group? g := rfl
@[simp] theorem State.setWarp_launch? (k : WarpKey) (w : Warp) (l : Word) : (s.setWarp k w).launch? l = s.launch? l := rfl
@[simp] theorem State.setWarp_core (k : WarpKey) (w : Warp) (c : Nat) : (s.setWarp k w).core c = s.core c := rfl
@[simp] theorem State.modWarp_group? (k : WarpKey) (fn : Warp → Warp) (g : GroupKey) :
    (s.modWarp k fn).group? g = s.group? g := by simp [State.group?]
@[simp] theorem State.modWarp_launch? (k : WarpKey) (fn : Warp → Warp) (l : Word) :
    (s.modWarp k fn).launch? l = s.launch? l := by simp [State.launch?]
@[simp] theorem State.modWarp_core (k : WarpKey) (fn : Warp → Warp) (c : Nat) : (s.modWarp k fn).core c = s.core c := by
  simp [State.core]
@[simp] theorem State.setGroup_group?_self (k : GroupKey) (g : Group) : (s.setGroup k g).group? k = some g :=
  kget?_kput_self ..
theorem State.setGroup_group?_of_ne {k j : GroupKey} (g : Group) (h : j ≠ k) : (s.setGroup k g).group? j = s.group? j :=
  kget?_kput_of_ne _ _ h
@[simp] theorem State.setCore_core_self (c : Nat) (x : CoreState) : (s.setCore c x).core c = x := ngetD_nsetD_self ..
theorem State.setCore_core_of_ne {c d : Nat} (x : CoreState) (h : d ≠ c) : (s.setCore c x).core d = s.core d :=
  ngetD_nsetD_of_ne _ _ _ h
@[simp] theorem State.modCore_core_self (c : Nat) (fn : CoreState → CoreState) : (s.modCore c fn).core c = fn (s.core c) :=
  ngetD_nsetD_self ..
@[simp] theorem State.setDie_die_self (d : Nat) (x : DieState) : (s.setDie d x).die d = x := ngetD_nsetD_self ..
theorem State.setDie_die_of_ne {d e : Nat} (x : DieState) (h : e ≠ d) : (s.setDie d x).die e = s.die e :=
  ngetD_nsetD_of_ne _ _ _ h
@[simp] theorem State.setLaunch_launch?_self (k : Word) (l : Launch) : (s.setLaunch k l).launch? k = some l :=
  kget?_kput_self ..

/-! ## Fibres of a warp -/

@[simp] theorem Warp.mapLanes_fibre? (w : Warp) (ls : List Lane) (fn : Lane → Fibre → Fibre) (l : Lane) :
    (w.mapLanes ls fn).fibre? l = (w.fibre? l).map (fun f => if l ∈ ls then fn l f else f) := by
  simp [Warp.mapLanes, Warp.fibre?]
@[simp] theorem Warp.setFibre_fibre?_self (w : Warp) (l : Lane) (f : Fibre) : (w.setFibre l f).fibre? l = some f :=
  nget?_nput_self ..
theorem Warp.setFibre_fibre?_of_ne (w : Warp) {l m : Lane} (f : Fibre) (h : m ≠ l) : (w.setFibre l f).fibre? m = w.fibre? m :=
  nget?_nput_of_ne _ _ h
@[simp] theorem Warp.dropFibre_fibre?_self (w : Warp) (l : Lane) : (w.dropFibre l).fibre? l = none := nget?_ndel_self ..
theorem Warp.dropFibre_fibre?_of_ne (w : Warp) {l m : Lane} (h : m ≠ l) : (w.dropFibre l).fibre? m = w.fibre? m :=
  nget?_ndel_of_ne _ h

/-! ## Registers -/

@[simp] theorem Fibre.setEntry_entry_self (f : Fibre) (j : Nat) (e : Entry) : (f.setEntry j e).entry j = e :=
  ngetD_nsetD_self ..
theorem Fibre.setEntry_entry_of_ne (f : Fibre) {j i : Nat} (e : Entry) (h : i ≠ j) : (f.setEntry j e).entry i = f.entry i :=
  ngetD_nsetD_of_ne _ _ _ h
@[simp] theorem Fibre.setEntry_wb (f : Fibre) (j : Nat) (e : Entry) : (f.setEntry j e).wb = f.wb := rfl
@[simp] theorem Fibre.setV_v_self (f : Fibre) (r : Reg) (x : Word) : (f.setV r x).v r = ⟨x, true⟩ := by
  simp [Fibre.v, Fibre.setV]
theorem Fibre.setV_v_of_ne (f : Fibre) {r q : Reg} (x : Word) (h : q ≠ r) : (f.setV r x).v q = f.v q := by
  have : f.wb + q.val ≠ f.wb + r.val := fun e => h (Fin.ext (by omega))
  simp [Fibre.v, Fibre.setV, Fibre.setEntry_entry_of_ne f _ this]

end Sys2Proof.Machine
end

