-- ==== Sys2Proof/Laws/Held.lean ====
section
/-! SUPPORT. Held effects (R329): what an issue that holds one leaves, and what one does as it leaves the store gate. -/

namespace Sys2Proof.Machine

variable (s : State)

/-- Holding an effect adds one item to the warp, behind those that stand there. -/
theorem State.holdEffect_of {x : Ctx} {w : Warp} (e : Held) (h : s.warp? x.key = some w) :
    s.holdEffect x e = s.setWarp x.key { w with pend := w.pend ++
      [{ num := x.w.issues, lane := 64, kind := .held e, pc := x.iss.pc, hdr := x.iss.hdr, spec := x.w.spec.isSome, seq := s.tick }] } :=
  State.modWarp_of s _ h
@[simp] theorem State.holdEffect_mem (x : Ctx) (e : Held) : (s.holdEffect x e).mem = s.mem := State.modWarp_mem ..
@[simp] theorem State.holdEffect_groups (x : Ctx) (e : Held) : (s.holdEffect x e).groups = s.groups := State.modWarp_groups ..
@[simp] theorem State.holdEffect_cores (x : Ctx) (e : Held) : (s.holdEffect x e).cores = s.cores := State.modWarp_cores ..
@[simp] theorem State.holdEffect_bars (x : Ctx) (e : Held) : (s.holdEffect x e).bars = s.bars := State.modWarp_bars ..
@[simp] theorem State.holdEffect_router (x : Ctx) (e : Held) : (s.holdEffect x e).router = s.router := State.modWarp_router ..

/-- An effect that may not leave the gate yet stays in it, and nothing changes. -/
theorem State.doHeld_waits {k : WarpKey} {w : Warp} {p : Pend} {e : Held} (h : s.heldReady k w p e = false) :
    s.doHeld k w p e = s := by simp [State.doHeld, h]
/-- One that may leaves the gate and acts, and no rollback goes behind its issue from then on. -/
theorem State.doHeld_acts {k : WarpKey} {w : Warp} {p : Pend} {e : Held} (h : s.heldReady k w p e = true)
    (hp : ∀ ls, e ≠ .deque .push ls) :
    s.doHeld k w p e = ((s.dropItem k p).modWarp k (·.dropUndoTo p.num)).applyEffect k p e := by
  unfold State.doHeld
  simp only [h, Bool.not_true, Bool.false_eq_true, if_false]

end Sys2Proof.Machine
end

