-- ==== Sys2Proof/Laws/Issue.lean ====
section
/-! SUPPORT. What the issue of an instruction does for a warp that is ready for it, said once for every instruction. -/

namespace Sys2Proof.Safety

open Sys2Proof.Machine

variable {s : State} {iss : Issue} {w : Warp} {g : Option Guard} {u : Uses}

theorem mem_acting {l : Lane} : l ∈ acting iss w g ↔ l ∈ iss.sel.lanes ∧ ∃ f, w.fibre? l = some f ∧ acts g f = true := by
  simp [acting, Option.any_eq_true]

theorem Issuing.lanes_live (h : Issuing s iss w) : iss.sel.lanes.filter (fun l => (w.fibre? l).isSome) = iss.sel.lanes :=
  List.filter_eq_self.2 h.fibres

theorem context_fibre {l : Lane} {f : Fibre} (h : w.fibre? l = some f) : (context iss w g).fibre l = f := by
  simp [context, Ctx.fibre, h]

theorem mem_context_fibres {e : Lane × Fibre} :
    e ∈ (context iss w g).fibres ↔ e.1 ∈ acting iss w g ∧ w.fibre? e.1 = some e.2 := by
  obtain ⟨l, f⟩ := e
  simp only [Ctx.fibres, List.mem_map, Prod.mk.injEq]
  constructor
  · rintro ⟨a, ha, rfl, rfl⟩
    obtain ⟨-, f, hf, -⟩ := mem_acting.1 ha
    exact ⟨ha, by rw [context_fibre hf]; exact hf⟩
  · rintro ⟨hl, hf⟩
    exact ⟨l, hl, rfl, context_fibre hf⟩

theorem isEmpty_of_waits {u : Uses} {w : Warp} {f : Fibre} (h : u.waits w f = false) :
    ∀ o ∈ u.src, Operand.isEmpty o w f = false := by
  intro o ho
  simp only [Uses.waits, Bool.or_eq_false_iff, List.any_eq_false] at h
  simpa using h.1 o ho

theorem firstTrapping_none {w : Warp} {f : Fibre} {l : List Operand} (n : Nat)
    (h : ∀ o ∈ l, Operand.isEmpty o w f = false) : firstTrapping w f n l = none := by
  induction l generalizing n with
  | nil => rfl
  | cons o l ih =>
    simp [firstTrapping, h o List.mem_cons_self, ih (n + 1) (fun o' h' => h o' (List.mem_cons_of_mem _ h'))]

/-- A fibre without causes takes none. -/
theorem deliverOwn_calm (x : Ctx) (point : Bool) (h : ∀ e ∈ x.fibres, e.2.causes = []) :
    s.deliverOwn x point u = (s, []) := by
  unfold State.deliverOwn
  generalize x.fibres = l at h
  induction l with
  | nil => rfl
  | cons e l ih =>
    rw [List.foldl_cons]
    simp only [h e List.mem_cons_self]
    exact ih (fun e' h' => h e' (List.mem_cons_of_mem _ h'))

/-- Fibres without causes share none of a named tile. -/
theorem tileCause_calm (x : Ctx) (h : ∀ e ∈ x.fibres, e.2.causes = []) : x.tileCause u = none :=
  List.findSome?_eq_none_iff.2 fun e he => by rw [h e he]

/-- Fibres without causes take none. -/
theorem deliver_calm (x : Ctx) (point : Bool) (h : ∀ e ∈ x.fibres, e.2.causes = []) : s.deliver x point u = (s, []) := by
  simp only [State.deliver, deliverOwn_calm x point h, tileCause_calm x h]

theorem active_eq (hf : ∀ l ∈ iss.sel.lanes, (w.fibre? l).isSome = true) :
    iss.sel.lanes.filter (w.actsIn g) = acting iss w g := by
  refine List.filter_congr fun l hl => ?_
  obtain ⟨f, hf⟩ := Option.isSome_iff_exists.1 (hf l hl)
  cases g <;> simp [hf, acts, Warp.actsIn]

/-- The instruction of a ready issue simply acts. -/
theorem Ready.runIssue_eq (h : Ready s iss w g u) (point inHandler : Bool) (act : Ctx → State → Act)
    (hh : inHandler = true → ∀ l f, l ∈ iss.sel.lanes → w.fibre? l = some f → f.handler = true) :
    s.runIssue g point inHandler u act = (context iss w g).settle (act (context iss w g) s) := by
  have hundo : w.undoFull = false := by simp [Warp.undoFull, h.settled]
  have hactive := active_eq (g := g) h.fibres
  have hcalm : s.deliver (context iss w g) point u = (s, []) :=
    deliver_calm _ _ fun e he => by
      obtain ⟨h1, h2⟩ := mem_context_fibres.1 he
      exact h.calm _ _ h1 h2
  have hempty : (context iss w g).emptyTraps u = [] := by
    simp only [Ctx.emptyTraps, List.filterMap_eq_nil_iff, Option.map_eq_none_iff]
    intro e he
    obtain ⟨h1, h2⟩ := mem_context_fibres.1 he
    exact firstTrapping_none 0 (isEmpty_of_waits (h.full _ _ h1 h2))
  have hwait : (context iss w g).fibres.any (fun e => u.waits (context iss w g).w e.2) = false := by
    simp only [List.any_eq_false, Bool.not_eq_true]
    intro e he
    obtain ⟨h1, h2⟩ := mem_context_fibres.1 he
    exact h.full _ _ h1 h2
  have hbad : (if inHandler = true then (context iss w g).lanes.filter (fun l => !((context iss w g).fibre l).handler)
      else []) = [] := by
    split
    · rename_i hi
      simp only [List.filter_eq_nil_iff, Bool.not_eq_true, Bool.not_eq_false']
      intro l hl
      obtain ⟨f, hf⟩ := Option.isSome_iff_exists.1 (h.fibres l hl)
      rw [context_fibre hf]; exact hh hi l f hl hf
    · rfl
  have hchecked : s.runChecked (context iss w g) u act = (context iss w g).settle (act (context iss w g) s) := by
    unfold State.runChecked
    have hk (l : List Lane) : l.filter (fun _ => true) = l := List.filter_eq_self.2 (by simp)
    have hw : s.warp? iss.key = some w := h.warp
    simp only [hempty, List.map_nil, State.takeTraps, List.foldl_nil, List.contains_nil, Bool.not_false, hk,
      List.isEmpty_nil, Bool.not_true, Bool.and_false, Bool.false_eq_true, if_false]
    change (if (s.warp? iss.key).isNone = true then s else
      if ((context iss w g).fibres.any fun e => u.waits (context iss w g).w e.2) = true then
        s.keepWaiting (context iss w g) true else (context iss w g).settle (act (context iss w g) s)) = _
    rw [hwait, hw]
    simp
  have hnow : s.issueNow g point inHandler u act = (context iss w g).settle (act (context iss w g) s) := by
    have hx : ({ key := iss.key, lanes := iss.sel.lanes, active := acting iss w g, iss := iss, w := w } : Ctx) =
        context iss w g := rfl
    have hl : (context iss w g).lanes = iss.sel.lanes := rfl
    rw [hl] at hbad
    have hkey : s.warp? (context iss w g).key = some w := h.warp
    have hdeliv : s.runDelivered (context iss w g) point u act = (context iss w g).settle (act (context iss w g) s) := by
      unfold State.runDelivered
      simp only [hcalm, hkey, Option.isNone_some, List.isEmpty_nil, Bool.false_eq_true, if_false, if_true]
      exact hchecked
    unfold State.issueNow
    simp only [h.issue, h.warp, hundo, h.toIssuing.lanes_live, hactive, hx, hbad, Bool.false_eq_true, if_false]
    simpa [h.free] using hdeliv
  unfold State.runIssue
  simp only [h.issue, State.unlessSpec, h.warp, h.settled, Option.bind_some, Option.isSome_none, Bool.false_and,
    Bool.false_eq_true, if_false, hnow]

/-! ## The end of an issue -/

theorem checkInject_unarmed (h : s.inject.arm = false) (k : WarpKey) (n : Nat) : s.checkInject k n = s := by
  simp [State.checkInject, h]

/-- The warp after an issue that completed. -/
def finished (tick : Nat) (iss : Issue) (w w1 : Warp) (moved : List Lane) (held : Bool) (done : Bool := true) : Warp :=
  let a := w1.mapLanes (iss.sel.lanes.filter (fun l => !moved.contains l)) (fun _ f => f.advance iss.len)
  let b := { a.toWarpArch with retired := a.retired + (if done then 1 else 0) }
  let b := b.afterIssue iss.sel a.keys.length
  let a := { a with toWarpArch := b, sel := none, waiting := .none, released := false }
  let a := if held then a.commit else a.pushUndo tick w.toWarpArch
  { a with issues := a.issues + 1 }

theorem finish_eq {s1 : State} {w1 : Warp} (hw : s1.warp? iss.key = some w1) (hin : s1.inject.arm = false)
    (moved : List Lane) (held done : Bool) :
    s1.finish (context iss w g) moved done held = s1.setWarp iss.key (finished s1.tick iss w w1 moved held done) := by
  have hk : (context iss w g).key = iss.key := rfl
  unfold State.finish
  simp only [hk, hw]
  rw [checkInject_unarmed (by simpa using hin), ite_self]
  rfl

theorem finished_fibre? (tick : Nat) (iss : Issue) (w w1 : Warp) (moved : List Lane) (held done : Bool) (l : Lane) :
    (finished tick iss w w1 moved held done).fibre? l =
      (w1.fibre? l).map (fun f => if l ∈ iss.sel.lanes ∧ l ∉ moved then f.advance iss.len else f) := by
  have : (finished tick iss w w1 moved held done).fibre? l =
      (w1.mapLanes (iss.sel.lanes.filter (fun l => !moved.contains l)) (fun _ f => f.advance iss.len)).fibre? l := by
    unfold finished; cases held <;> rfl
  simp [this]

/-- An issue that completed leaves what `Completes` says of a state `b` with the warp `wb`, when the instruction's own effect
does. -/
theorem Completes.of_finish {b s1 out : State} {wb w1 : Warp} {moved : List Lane} {held done : Bool} {fn : Lane → Fibre → Fibre}
    {rest : Warp → Warp} (hin : s1.inject.arm = false) (hw : s1.warp? iss.key = some w1)
    (hout : { s1 with warps := b.warps } = out)
    (hmem : ∀ a, memByte s1.mem a = memByte b.mem a) (hoth : ∀ k, k ≠ iss.key → s1.warp? k = b.warp? k)
    (hf : ∀ l, (w1.fibre? l).map (fun f => if l ∈ iss.sel.lanes ∧ l ∉ moved then f.advance iss.len else f) =
      (wb.fibre? l).map (fun f => if l ∈ iss.sel.lanes then fn l f else f))
    (hr : w1.retired = wb.retired) (hc : w1.c = wb.c) (hq : w1.q = wb.q) (hs : w1.serial = wb.serial)
    (hrest : keptIn wb { w1 with waiting := .none } = rest wb) :
    Completes b (s1.finish (context iss w g) moved done held) iss wb fn rest out (if done then 1 else 0) := by
  rw [finish_eq hw hin]
  refine ⟨by rw [← hout]; rfl, hmem, fun k hk => by rw [State.setWarp_warp?_of_ne _ _ hk]; exact hoth k hk, _,
    State.setWarp_warp?_self .., fun l => by rw [finished_fibre?]; exact hf l, ?_, ?_, ?_, ?_, ?_, ?_⟩
  · rw [← hr]; unfold finished; cases held <;> rfl
  · unfold finished; cases held <;> rfl
  · rw [← hc, ← hq]; unfold finished; cases held <;> rfl
  · rw [← hs]; unfold finished; cases held <;> rfl
  · unfold finished; cases held <;> rfl
  · rw [← hrest]; unfold finished; cases held <;> rfl

/-- The fibres of an issue in which the acting ones were changed by `op` and every lane goes on. -/
theorem passing_fibres {b : Warp} (op : Lane → Fibre → Fibre) (hb : ∀ l f, l ∈ iss.sel.lanes → b.fibre? l = some f →
      ∃ f', w.fibre? l = some f' ∧ acts g f = acts g f') (l : Lane) :
    (((b.mapLanes (acting iss w g) op).fibre? l).map (fun f => if l ∈ iss.sel.lanes ∧ l ∉ ([] : List Lane) then f.advance iss.len else f)) =
      (b.fibre? l).map (fun f => if l ∈ iss.sel.lanes then passing iss g op l f else f) := by
  rw [Warp.mapLanes_fibre?, Option.map_map]
  refine Option.map_congr fun f hf => ?_
  by_cases hl : l ∈ iss.sel.lanes
  · obtain ⟨f', hf', he⟩ := hb l f hl hf
    have : (l ∈ acting iss w g) ↔ acts g f = true := by rw [he]; simp [mem_acting, hl, hf']
    simp [hl, passing, this]
  · have : l ∉ acting iss w g := fun e => hl (mem_acting.1 e).1
    simp [hl, this]

/-- The same where the acting fibres go to places of their own. -/
theorem moving_fibres {b : Warp} (op : Lane → Fibre → Fibre) (hb : ∀ l f, l ∈ iss.sel.lanes → b.fibre? l = some f →
      ∃ f', w.fibre? l = some f' ∧ acts g f = acts g f') (l : Lane) :
    (((b.mapLanes (acting iss w g) op).fibre? l).map (fun f => if l ∈ iss.sel.lanes ∧ l ∉ acting iss w g then f.advance iss.len else f)) =
      (b.fibre? l).map (fun f => if l ∈ iss.sel.lanes then moving iss g op l f else f) := by
  rw [Warp.mapLanes_fibre?, Option.map_map]
  refine Option.map_congr fun f hf => ?_
  by_cases hl : l ∈ iss.sel.lanes
  · obtain ⟨f', hf', he⟩ := hb l f hl hf
    have : (l ∈ acting iss w g) ↔ acts g f = true := by rw [he]; simp [mem_acting, hl, hf']
    by_cases ha : acts g f = true <;> simp [hl, moving, this, ha]
  · have : l ∉ acting iss w g := fun e => hl (mem_acting.1 e).1
    simp [hl, this]

/-- An instruction that changes its own acting fibres, the rest of its warp and the state outside the warps completes: `s1` is
the state it made, and its warp there is `rest w` with those fibres changed. -/
theorem Completes.of_done {s1 out : State} {op : Lane → Fibre → Fibre} {rest : Warp → Warp}
    {held : Bool} (hw : s1.warp? iss.key = some { rest w with slots := (w.mapLanes (acting iss w g) op).slots })
    (hin : s1.inject.arm = false) (hout : { s1 with warps := s.warps } = out)
    (hmem : ∀ a, memByte s1.mem a = memByte s.mem a) (hoth : ∀ k, k ≠ iss.key → s1.warp? k = s.warp? k)
    (hr : keptIn w { rest w with waiting := .none } = rest w) :
    Completes s ((context iss w g).settle (.done s1 [] true held)) iss w (passing iss g op) rest out := by
  have e : ∀ {α : Type} (p : Warp → α), p (rest w) = p (keptIn w { rest w with waiting := .none }) := fun p => congrArg p hr.symm
  refine Completes.of_finish (done := true) hin hw hout hmem hoth (fun l => ?_) (e (·.retired)) (e (·.c)) (e (·.q)) (e (·.serial)) ?_
  · exact passing_fibres (b := w) op (fun l f _ hf => ⟨f, hf, rfl⟩) l
  · exact hr

/-- The same for an instruction whose acting fibres go to places of their own. -/
theorem Completes.of_moved {s1 out : State} {op : Lane → Fibre → Fibre} {rest : Warp → Warp}
    {held done : Bool} (hw : s1.warp? iss.key = some { rest w with slots := (w.mapLanes (acting iss w g) op).slots })
    (hin : s1.inject.arm = false) (hout : { s1 with warps := s.warps } = out)
    (hmem : ∀ a, memByte s1.mem a = memByte s.mem a) (hoth : ∀ k, k ≠ iss.key → s1.warp? k = s.warp? k)
    (hr : keptIn w { rest w with waiting := .none } = rest w) :
    Completes s ((context iss w g).settle (.done s1 (acting iss w g) done held)) iss w (moving iss g op) rest out
      (if done then 1 else 0) := by
  have e : ∀ {α : Type} (p : Warp → α), p (rest w) = p (keptIn w { rest w with waiting := .none }) := fun p => congrArg p hr.symm
  refine Completes.of_finish (done := done) hin hw hout hmem hoth (fun l => ?_) (e (·.retired)) (e (·.c)) (e (·.q)) (e (·.serial)) ?_
  · exact moving_fibres (b := w) op (fun l f _ hf => ⟨f, hf, rfl⟩) l
  · exact hr

/-- An instruction that changes only its own acting fibres completes. -/
theorem Ready.eachLane_completes (h : Ready s iss w g u) (op : Lane → Fibre → Fibre) :
    Completes s ((context iss w g).settle ((context iss w g).eachLane s op)) iss w (passing iss g op) := by
  have e : s.modWarp iss.key (fun w1 => w1.mapLanes (acting iss w g) op) =
      s.setWarp iss.key (w.mapLanes (acting iss w g) op) := s.modWarp_of _ h.warp
  refine Completes.of_done (rest := id) (held := false) (s1 := s.modWarp iss.key (fun w1 => w1.mapLanes (acting iss w g) op)) ?_ ?_ ?_ ?_ ?_ ?_
  · rw [e, State.setWarp_warp?_self]; rfl
  · rw [e]; exact h.unarmed
  · rw [e]; rfl
  · rw [e]; exact fun _ => rfl
  · rw [e]; exact fun k hk => State.setWarp_warp?_of_ne _ _ hk
  · rw [← h.free]; rfl

/-- The same for an instruction with the `plain` shape. -/
theorem Ready.plain_completes {g : Guard} (h : Ready s iss w (some g) u) (op : Lane → Fibre → Fibre) :
    ∃ t, plain s g u op = .next t ∧ Completes s t iss w (passing iss (some g) op) :=
  ⟨_, rfl, by rw [h.runIssue_eq _ _ _ (by simp)]; exact h.eachLane_completes op⟩

end Sys2Proof.Safety
end

