-- ==== Sys2Proof/Laws/Memory.lean ====
section
/-! SUPPORT. What memory operations read, change and keep: read after write, every other byte, and the canonical form. -/

namespace Sys2Proof.Machine

variable (m : List Host.Cell)

@[simp] theorem memByte_memSetByte_self (a : Nat) (b : Byte) : memByte (memSetByte m a b) a = b := ngetD_nsetD_self ..

theorem memByte_memSetByte_of_ne {a i : Nat} (b : Byte) (h : i ≠ a) : memByte (memSetByte m a b) i = memByte m i :=
  ngetD_nsetD_of_ne _ _ _ h

theorem memByte_memSetByte (a i : Nat) (b : Byte) : memByte (memSetByte m a b) i = if i = a then b else memByte m i :=
  ngetD_nsetD ..

/-- A byte below the bytes written, or past them, is as before. -/
theorem memByte_memSetBytes_of_outside {a i : Nat} (l : List Byte) (h : i < a ∨ a + l.length ≤ i) :
    memByte (memSetBytes m a l) i = memByte m i := by
  induction l generalizing m a with
  | nil => rfl
  | cons b l ih =>
    simp only [List.length_cons] at h
    rw [memSetBytes, ih _ (by omega), memByte_memSetByte_of_ne _ _ (by omega)]

/-- A byte that was written reads as what was written. -/
theorem memByte_memSetBytes_of_inside {a j : Nat} (l : List Byte) (h : j < l.length) :
    memByte (memSetBytes m a l) (a + j) = l[j] := by
  induction l generalizing m a j with
  | nil => simp at h
  | cons b l ih =>
    cases j with
    | zero => rw [memSetBytes, memByte_memSetBytes_of_outside _ _ (by omega)]; simp
    | succ j =>
      simp only [List.length_cons] at h
      rw [memSetBytes, show a + (j + 1) = a + 1 + j by omega, ih _ (by omega)]; simp

@[simp] theorem length_memBytes (a n : Nat) : (memBytes m a n).length = n := by
  induction n generalizing a with
  | zero => rfl
  | succ n ih => simp [memBytes, ih]

theorem getElem_memBytes (a n i : Nat) (h : i < (memBytes m a n).length) : (memBytes m a n)[i] = memByte m (a + i) := by
  induction n generalizing a i with
  | zero => simp at h
  | succ n ih =>
    cases i with
    | zero => rfl
    | succ i => simp only [memBytes, List.getElem_cons_succ, ih]; congr 1; omega

/-- Reading back what was just written. -/
@[simp] theorem memBytes_memSetBytes_self (a : Nat) (l : List Byte) : memBytes (memSetBytes m a l) a l.length = l := by
  apply List.ext_getElem (by simp)
  intro i h1 h2
  rw [getElem_memBytes, memByte_memSetBytes_of_inside _ _ h2]

/-- Reading bytes that a write does not meet. -/
theorem memBytes_memSetBytes_of_disjoint {a i n : Nat} (l : List Byte) (h : i + n ≤ a ∨ a + l.length ≤ i) :
    memBytes (memSetBytes m a l) i n = memBytes m i n := by
  apply List.ext_getElem (by simp)
  intro j h1 h2
  simp only [length_memBytes] at h1
  rw [getElem_memBytes, getElem_memBytes, memByte_memSetBytes_of_outside _ _ (by omega)]

/-! ## The canonical form -/

theorem wf_nil : Memory.wf [] = true := rfl

theorem wf_memSetByte {m : List Host.Cell} (a : Nat) (b : Byte) (h : Memory.wf m = true) : Memory.wf (memSetByte m a b) = true :=
  ncanon_nsetD a b h

theorem wf_memSetBytes {m : List Host.Cell} (a : Nat) (l : List Byte) (h : Memory.wf m = true) :
    Memory.wf (memSetBytes m a l) = true := by
  induction l generalizing m a with
  | nil => exact h
  | cons b l ih => exact ih _ (wf_memSetByte a b h)

variable (s : State)

@[simp] theorem recallMarks_mem (first last : Nat) : (s.recallMarks first last).mem = s.mem := rfl
@[simp] theorem poisonSector_mem (a : Nat) : (s.poisonSector a).mem = s.mem := by unfold State.poisonSector; split <;> rfl
@[simp] theorem eachHolder_mem (line : Nat) (but : Option Nat) (fn : CoreState → CoreState) :
    (s.eachHolder line but fn).mem = s.mem := by
  unfold State.eachHolder
  generalize s.cores.filter _ = l
  induction l generalizing s with
  | nil => rfl
  | cons e l ih => rw [List.foldl_cons, ih]; rfl
@[simp] theorem recallLine_mem (line : Nat) (but : Option Nat) : (s.recallLine line but).mem = s.mem := eachHolder_mem ..
@[simp] theorem copyIn_mem (c line : Nat) : (s.copyIn c line).mem = s.mem := by simp [State.copyIn]
@[simp] theorem stampStore_mem (c a : Nat) (atHome : Bool) : (s.stampStore c a atHome).mem = s.mem := by simp [State.stampStore]
@[simp] theorem leaseCore_mem (c line : Nat) : (s.leaseCore c line).mem = s.mem := rfl
@[simp] theorem leaseOutside_mem (line : Nat) : (s.leaseOutside line).mem = s.mem := eachHolder_mem ..
@[simp] theorem stampLoad_home_mem (c a : Nat) (bypass : Bool) : (State.stampLoad.home s c a bypass).mem = s.mem := by
  unfold State.stampLoad.home
  dsimp only
  split <;> simp
@[simp] theorem stampLoad_mem (c a : Nat) (bypass : Bool) : (s.stampLoad c a bypass).mem = s.mem := by
  unfold State.stampLoad
  dsimp only
  split
  · split <;> simp
  · simp
@[simp] theorem stampOutside_mem (line : Nat) : (s.stampOutside line).mem = s.mem := by simp [State.stampOutside]
@[simp] theorem writeMem_mem (a : Nat) (l : List Byte) : (s.writeMem a l).mem = memSetBytes s.mem a l := rfl
@[simp] theorem writeAtomic_mem (a : Nat) (l : List Byte) : (s.writeAtomic a l).mem = memSetBytes s.mem a l := rfl

theorem writeMem_wf {s : State} (a : Nat) (l : List Byte) (h : Memory.wf s.mem = true) : Memory.wf (s.writeMem a l).mem = true :=
  wf_memSetBytes a l h
theorem writeAtomic_wf {s : State} (a : Nat) (l : List Byte) (h : Memory.wf s.mem = true) :
    Memory.wf (s.writeAtomic a l).mem = true := wf_memSetBytes a l h
theorem writeLoc_wf {s : State} (l : Loc) (b : List Byte) (h : Memory.wf s.mem = true) : Memory.wf (s.writeLoc l b).mem = true := by
  cases l with
  | mem pa => exact writeMem_wf _ _ h
  | scr g off => simpa [State.writeLoc] using h

end Sys2Proof.Machine
end

