-- ==== Sys2Proof/Laws/PerInstr.lean ====
section
/-! SUPPORT. What holds of every instruction as syntax, one lemma per constructor: its words fit in 32 bits. -/

namespace Sys2Proof.Laws.F

set_option Elab.async false

/-- The words that an instruction is encoded in are 32-bit numbers (R57, R66). -/
def Statement (i : Instr) : Prop := encode0 i < 2 ^ 32 ∧ ∀ v, encode1 i = some v → v < 2 ^ 32

/-! ## The fields -/

theorem ActFn_code_le (x : ActFn) : x.code ≤ 3 := by cases x <;> decide
theorem AtomOp_code_le (x : AtomOp) : x.code ≤ 8 := by cases x <;> decide
theorem AtomType_code_le (x : AtomType) : x.code ≤ 8 := by cases x <;> decide
theorem CasType_code_le (x : CasType) : x.code ≤ 2 := by cases x <;> decide
theorem CctlOp_code_le (x : CctlOp) : x.code ≤ 3 := by cases x <;> decide
theorem CopyMode_code_le (x : CopyMode) : x.code ≤ 2 := by cases x <;> decide
theorem CvtType_code_le (x : CvtType) : x.code ≤ 12 := by cases x <;> decide
theorem CvtType_index_le (x : CvtType) : x.index ≤ 8 := by cases x <;> decide
theorem Endpoint_code_le (x : Endpoint) : x.code ≤ 2 := by cases x <;> decide
theorem Ffma4Type_code_le (x : Ffma4Type) : x.code ≤ 2 := by cases x <;> decide
theorem ImadVar_code_le (x : ImadVar) : x.code ≤ 3 := by cases x <;> decide
theorem MemSize_code_le (x : MemSize) : x.code ≤ 6 := by cases x <;> decide
theorem PackSel_code_le (x : PackSel) : x.code ≤ 3 := by cases x <;> decide
theorem Policy_code_le (x : Policy) : x.code ≤ 3 := by cases x <;> decide
theorem PwrHint_code_le (x : PwrHint) : x.code ≤ 2 := by cases x <;> decide
theorem RMode_code_le (x : RMode) : x.code ≤ 4 := by cases x <;> decide
theorem RedOp_code_le (x : RedOp) : x.code ≤ 5 := by cases x <;> decide
theorem RedType_code_le (x : RedType) : x.code ≤ 3 := by cases x <;> decide
theorem SaluOp_code_le (x : SaluOp) : x.code ≤ 29 := by cases x <;> decide
theorem Scope_code_le (x : Scope) : x.code ≤ 6 := by cases x <;> decide
theorem SpecReg_code_le (x : SpecReg) : x.code ≤ 38 := by cases x <;> decide
theorem VoteMode_code_le (x : VoteMode) : x.code ≤ 3 := by cases x <;> decide

theorem IntCmp_code_le (x : IntCmp) : x.code ≤ 7 := by cases x <;> decide
theorem FltCmp_code_le (x : FltCmp) : x.code ≤ 7 := by cases x <;> decide
theorem encGuard_le (g : Guard) : encGuard g ≤ 15728640 := by
  have := Bool.toNat_le g.sense; simp only [encGuard]; omega
theorem encA_le (f : FmtA) : encA f ≤ 16777215 := by
  have := encGuard_le f.g; have := Bool.toNat_le f.fa; have := Bool.toNat_le f.fb; simp only [encA]; omega
theorem encU_le (f : FmtU) : encU f ≤ 16777215 := by
  have := encGuard_le f.g; have := Bool.toNat_le f.fa; simp only [encU]; omega
theorem encB_le (f : FmtB) : encB f ≤ 16777215 := by
  have := encGuard_le f.g; simp only [encB]; omega
theorem encM_le (f : FmtM) : encM f ≤ 16777215 := by
  have := encGuard_le f.g; have := Bool.toNat_le f.fa; have := Bool.toNat_le f.scale; simp only [encM]; omega
theorem encPI_le (f : FmtPI) : encPI f ≤ 16777215 := by
  have := encGuard_le f.g; have := IntCmp_code_le f.cc; have := Bool.toNat_le f.fa; have := Bool.toNat_le f.fb
  simp only [encPI]; omega
theorem encPF_le (f : FmtPF) : encPF f ≤ 16777215 := by
  have := encGuard_le f.g; have := FltCmp_code_le f.cc; have := Bool.toNat_le f.fa; have := Bool.toNat_le f.fb
  simp only [encPF]; omega
theorem encBar_le (o : BarOp) : encBar o ≤ 255 := by
  have := Scope_code_le o.scope; simp only [encBar]; omega
theorem encAtom0_le (m : AtomAddr) : encAtom0 m ≤ 16383 := by
  have := Bool.toNat_le m.fa; have := Bool.toNat_le m.scale; simp only [encAtom0]; omega
theorem encAtom1_le (m : AtomAddr) : encAtom1 m ≤ 65535 := by
  have := Scope_code_le m.scope; have := Bool.toNat_le m.sp; simp only [encAtom1]; omega

/-! ## The constructors -/

theorem iadd (f : FmtA) : Statement (.iadd f) :=
  ⟨by have := encA_le f; show 0 * 16777216 + encA f < 4294967296; omega,
    fun _ h => nomatch (show none = some _ from h)⟩
theorem iaddi (f : FmtB) : Statement (.iaddi f) :=
  ⟨by have := encB_le f; show 1 * 16777216 + encB f < 4294967296; omega,
    fun _ h => nomatch (show none = some _ from h)⟩
theorem isub (f : FmtA) : Statement (.isub f) :=
  ⟨by have := encA_le f; show 2 * 16777216 + encA f < 4294967296; omega,
    fun _ h => nomatch (show none = some _ from h)⟩
theorem iadd64 (f : FmtA) : Statement (.iadd64 f) :=
  ⟨by have := encA_le f; show 3 * 16777216 + encA f < 4294967296; omega,
    fun _ h => nomatch (show none = some _ from h)⟩
theorem isub64 (f : FmtA) : Statement (.isub64 f) :=
  ⟨by have := encA_le f; show 4 * 16777216 + encA f < 4294967296; omega,
    fun _ h => nomatch (show none = some _ from h)⟩
theorem imul (f : FmtA) : Statement (.imul f) :=
  ⟨by have := encA_le f; show 5 * 16777216 + encA f < 4294967296; omega,
    fun _ h => nomatch (show none = some _ from h)⟩
theorem imulhiS32 (f : FmtA) : Statement (.imulhiS32 f) :=
  ⟨by have := encA_le f; show 6 * 16777216 + encA f < 4294967296; omega,
    fun _ h => nomatch (show none = some _ from h)⟩
theorem imulhiN32 (f : FmtA) : Statement (.imulhiN32 f) :=
  ⟨by have := encA_le f; show 7 * 16777216 + encA f < 4294967296; omega,
    fun _ h => nomatch (show none = some _ from h)⟩
theorem imulwS32 (f : FmtA) : Statement (.imulwS32 f) :=
  ⟨by have := encA_le f; show 8 * 16777216 + encA f < 4294967296; omega,
    fun _ h => nomatch (show none = some _ from h)⟩
theorem imulwN32 (f : FmtA) : Statement (.imulwN32 f) :=
  ⟨by have := encA_le f; show 9 * 16777216 + encA f < 4294967296; omega,
    fun _ h => nomatch (show none = some _ from h)⟩
theorem idivS32 (f : FmtA) : Statement (.idivS32 f) :=
  ⟨by have := encA_le f; show 10 * 16777216 + encA f < 4294967296; omega,
    fun _ h => nomatch (show none = some _ from h)⟩
theorem idivN32 (f : FmtA) : Statement (.idivN32 f) :=
  ⟨by have := encA_le f; show 11 * 16777216 + encA f < 4294967296; omega,
    fun _ h => nomatch (show none = some _ from h)⟩
theorem iremS32 (f : FmtA) : Statement (.iremS32 f) :=
  ⟨by have := encA_le f; show 12 * 16777216 + encA f < 4294967296; omega,
    fun _ h => nomatch (show none = some _ from h)⟩
theorem iremN32 (f : FmtA) : Statement (.iremN32 f) :=
  ⟨by have := encA_le f; show 13 * 16777216 + encA f < 4294967296; omega,
    fun _ h => nomatch (show none = some _ from h)⟩
theorem iminS32 (f : FmtA) : Statement (.iminS32 f) :=
  ⟨by have := encA_le f; show 14 * 16777216 + encA f < 4294967296; omega,
    fun _ h => nomatch (show none = some _ from h)⟩
theorem iminN32 (f : FmtA) : Statement (.iminN32 f) :=
  ⟨by have := encA_le f; show 15 * 16777216 + encA f < 4294967296; omega,
    fun _ h => nomatch (show none = some _ from h)⟩
theorem imaxS32 (f : FmtA) : Statement (.imaxS32 f) :=
  ⟨by have := encA_le f; show 16 * 16777216 + encA f < 4294967296; omega,
    fun _ h => nomatch (show none = some _ from h)⟩
theorem imaxN32 (f : FmtA) : Statement (.imaxN32 f) :=
  ⟨by have := encA_le f; show 17 * 16777216 + encA f < 4294967296; omega,
    fun _ h => nomatch (show none = some _ from h)⟩
theorem iabs (f : FmtU) : Statement (.iabs f) :=
  ⟨by have := encU_le f; show 18 * 16777216 + encU f < 4294967296; omega,
    fun _ h => nomatch (show none = some _ from h)⟩
theorem iaddsatS32 (f : FmtA) : Statement (.iaddsatS32 f) :=
  ⟨by have := encA_le f; show 19 * 16777216 + encA f < 4294967296; omega,
    fun _ h => nomatch (show none = some _ from h)⟩
theorem isubsatS32 (f : FmtA) : Statement (.isubsatS32 f) :=
  ⟨by have := encA_le f; show 20 * 16777216 + encA f < 4294967296; omega,
    fun _ h => nomatch (show none = some _ from h)⟩
theorem idot4S8 (f : FmtA) : Statement (.idot4S8 f) :=
  ⟨by have := encA_le f; show 21 * 16777216 + encA f < 4294967296; omega,
    fun _ h => nomatch (show none = some _ from h)⟩
theorem and (f : FmtA) : Statement (.and f) :=
  ⟨by have := encA_le f; show 24 * 16777216 + encA f < 4294967296; omega,
    fun _ h => nomatch (show none = some _ from h)⟩
theorem or (f : FmtA) : Statement (.or f) :=
  ⟨by have := encA_le f; show 25 * 16777216 + encA f < 4294967296; omega,
    fun _ h => nomatch (show none = some _ from h)⟩
theorem xor (f : FmtA) : Statement (.xor f) :=
  ⟨by have := encA_le f; show 26 * 16777216 + encA f < 4294967296; omega,
    fun _ h => nomatch (show none = some _ from h)⟩
theorem andn (f : FmtA) : Statement (.andn f) :=
  ⟨by have := encA_le f; show 27 * 16777216 + encA f < 4294967296; omega,
    fun _ h => nomatch (show none = some _ from h)⟩
theorem andi (f : FmtB) : Statement (.andi f) :=
  ⟨by have := encB_le f; show 28 * 16777216 + encB f < 4294967296; omega,
    fun _ h => nomatch (show none = some _ from h)⟩
theorem ori (f : FmtB) : Statement (.ori f) :=
  ⟨by have := encB_le f; show 29 * 16777216 + encB f < 4294967296; omega,
    fun _ h => nomatch (show none = some _ from h)⟩
theorem xori (f : FmtB) : Statement (.xori f) :=
  ⟨by have := encB_le f; show 30 * 16777216 + encB f < 4294967296; omega,
    fun _ h => nomatch (show none = some _ from h)⟩
theorem shl (f : FmtA) : Statement (.shl f) :=
  ⟨by have := encA_le f; show 32 * 16777216 + encA f < 4294967296; omega,
    fun _ h => nomatch (show none = some _ from h)⟩
theorem shr (f : FmtA) : Statement (.shr f) :=
  ⟨by have := encA_le f; show 33 * 16777216 + encA f < 4294967296; omega,
    fun _ h => nomatch (show none = some _ from h)⟩
theorem sar (f : FmtA) : Statement (.sar f) :=
  ⟨by have := encA_le f; show 34 * 16777216 + encA f < 4294967296; omega,
    fun _ h => nomatch (show none = some _ from h)⟩
theorem rotl (f : FmtA) : Statement (.rotl f) :=
  ⟨by have := encA_le f; show 35 * 16777216 + encA f < 4294967296; omega,
    fun _ h => nomatch (show none = some _ from h)⟩
theorem shli (f : FmtB) : Statement (.shli f) :=
  ⟨by have := encB_le f; show 36 * 16777216 + encB f < 4294967296; omega,
    fun _ h => nomatch (show none = some _ from h)⟩
theorem shri (f : FmtB) : Statement (.shri f) :=
  ⟨by have := encB_le f; show 37 * 16777216 + encB f < 4294967296; omega,
    fun _ h => nomatch (show none = some _ from h)⟩
theorem sari (f : FmtB) : Statement (.sari f) :=
  ⟨by have := encB_le f; show 38 * 16777216 + encB f < 4294967296; omega,
    fun _ h => nomatch (show none = some _ from h)⟩
theorem popc (f : FmtU) : Statement (.popc f) :=
  ⟨by have := encU_le f; show 40 * 16777216 + encU f < 4294967296; omega,
    fun _ h => nomatch (show none = some _ from h)⟩
theorem clz (f : FmtU) : Statement (.clz f) :=
  ⟨by have := encU_le f; show 41 * 16777216 + encU f < 4294967296; omega,
    fun _ h => nomatch (show none = some _ from h)⟩
theorem brev (f : FmtU) : Statement (.brev f) :=
  ⟨by have := encU_le f; show 42 * 16777216 + encU f < 4294967296; omega,
    fun _ h => nomatch (show none = some _ from h)⟩
theorem bfxN32 (f : FmtA) : Statement (.bfxN32 f) :=
  ⟨by have := encA_le f; show 43 * 16777216 + encA f < 4294967296; omega,
    fun _ h => nomatch (show none = some _ from h)⟩
theorem bfxS32 (f : FmtA) : Statement (.bfxS32 f) :=
  ⟨by have := encA_le f; show 44 * 16777216 + encA f < 4294967296; omega,
    fun _ h => nomatch (show none = some _ from h)⟩
theorem bfi (f : FmtA) : Statement (.bfi f) :=
  ⟨by have := encA_le f; show 45 * 16777216 + encA f < 4294967296; omega,
    fun _ h => nomatch (show none = some _ from h)⟩
theorem icmp (f : FmtPI) : Statement (.icmp f) :=
  ⟨by have := encPI_le f; show 48 * 16777216 + encPI f < 4294967296; omega,
    fun _ h => nomatch (show none = some _ from h)⟩
theorem pcomb (g : Guard) (pd : Pred) (pa : Pred) (pb : Pred) (table : BitVec 8) : Statement (.pcomb g pd pa pb table) :=
  ⟨by have := encGuard_le g; show 49 * 16777216 + encGuard g + pd.val * 131072 + pa.val * 16384 + pb.val * 2048 + table.toNat < 4294967296; omega,
    fun _ h => nomatch (show none = some _ from h)⟩
theorem pick (f : FmtA) : Statement (.pick f) :=
  ⟨by have := encA_le f; show 50 * 16777216 + encA f < 4294967296; omega,
    fun _ h => nomatch (show none = some _ from h)⟩
theorem pread (g : Guard) (d : Reg) : Statement (.pread g d) :=
  ⟨by have := encGuard_le g; show 51 * 16777216 + encGuard g + d.val * 16384 < 4294967296; omega,
    fun _ h => nomatch (show none = some _ from h)⟩
theorem pwrite (g : Guard) (a : Reg) (b : Reg) (fa : Bool) (fb : Bool) : Statement (.pwrite g a b fa fb) :=
  ⟨by have := Bool.toNat_le fa; have := Bool.toNat_le fb; have := encGuard_le g; show 52 * 16777216 + encGuard g + a.val * 256 + b.val * 4 + fa.toNat * 2 + fb.toNat < 4294967296; omega,
    fun _ h => nomatch (show none = some _ from h)⟩
theorem mov (f : FmtU) : Statement (.mov f) :=
  ⟨by have := encU_le f; show 56 * 16777216 + encU f < 4294967296; omega,
    fun _ h => nomatch (show none = some _ from h)⟩
theorem movs (g : Guard) (d : Reg) (sb : Reg) (fb : Bool) : Statement (.movs g d sb fb) :=
  ⟨by have := Bool.toNat_le fb; have := encGuard_le g; show 57 * 16777216 + encGuard g + d.val * 16384 + sb.val * 4 + fb.toNat < 4294967296; omega,
    fun _ h => nomatch (show none = some _ from h)⟩
theorem salu (op : SaluOp) (d : Reg) (a : Reg) (b : Reg) : Statement (.salu op d a b) :=
  ⟨by have := SaluOp_code_le op; show 58 * 16777216 + op.code + d.val * 262144 + a.val * 4096 + b.val * 64 < 4294967296; omega,
    fun _ h => nomatch (show none = some _ from h)⟩
theorem salui (op : SaluOp) (d : Reg) (a : Reg) (imm : BitVec 6) : Statement (.salui op d a imm) :=
  ⟨by have := SaluOp_code_le op; show 59 * 16777216 + op.code + d.val * 262144 + a.val * 4096 + imm.toNat * 64 < 4294967296; omega,
    fun _ h => nomatch (show none = some _ from h)⟩
theorem srget (g : Guard) (d : Reg) (n : SpecReg) : Statement (.srget g d n) :=
  ⟨by have := SpecReg_code_le n; have := encGuard_le g; show 61 * 16777216 + encGuard g + d.val * 16384 + n.code < 4294967296; omega,
    fun _ h => nomatch (show none = some _ from h)⟩
theorem srset (g : Guard) (a : Reg) (n : SpecReg) : Statement (.srset g a n) :=
  ⟨by have := SpecReg_code_le n; have := encGuard_le g; show 62 * 16777216 + encGuard g + a.val * 256 + n.code < 4294967296; omega,
    fun _ h => nomatch (show none = some _ from h)⟩
theorem movi (g : Guard) (d : Reg) (imm : BitVec 32) : Statement (.movi g d imm) :=
  ⟨by have := encGuard_le g; show 224 * 16777216 + encGuard g + d.val * 16384 < 4294967296; omega,
    fun _ h => by obtain rfl := Option.some.inj h; omega⟩
theorem smovi (g : Guard) (d : Reg) (imm : BitVec 32) : Statement (.smovi g d imm) :=
  ⟨by have := encGuard_le g; show 225 * 16777216 + encGuard g + d.val * 16384 < 4294967296; omega,
    fun _ h => by obtain rfl := Option.some.inj h; omega⟩
theorem imad (f : FmtA) (c : Reg) (fc : Bool) (var : ImadVar) : Statement (.imad f c fc var) :=
  ⟨by have := encA_le f; show 229 * 16777216 + encA f < 4294967296; omega,
    fun _ h => by obtain rfl := Option.some.inj h; have := Bool.toNat_le fc; have := ImadVar_code_le var; omega⟩
theorem fadd (f : FmtA) : Statement (.fadd f) :=
  ⟨by have := encA_le f; show 64 * 16777216 + encA f < 4294967296; omega,
    fun _ h => nomatch (show none = some _ from h)⟩
theorem fsub (f : FmtA) : Statement (.fsub f) :=
  ⟨by have := encA_le f; show 65 * 16777216 + encA f < 4294967296; omega,
    fun _ h => nomatch (show none = some _ from h)⟩
theorem fmul (f : FmtA) : Statement (.fmul f) :=
  ⟨by have := encA_le f; show 66 * 16777216 + encA f < 4294967296; omega,
    fun _ h => nomatch (show none = some _ from h)⟩
theorem ffma (f : FmtA) : Statement (.ffma f) :=
  ⟨by have := encA_le f; show 67 * 16777216 + encA f < 4294967296; omega,
    fun _ h => nomatch (show none = some _ from h)⟩
theorem ffms (f : FmtA) : Statement (.ffms f) :=
  ⟨by have := encA_le f; show 68 * 16777216 + encA f < 4294967296; omega,
    fun _ h => nomatch (show none = some _ from h)⟩
theorem ffnma (f : FmtA) : Statement (.ffnma f) :=
  ⟨by have := encA_le f; show 69 * 16777216 + encA f < 4294967296; omega,
    fun _ h => nomatch (show none = some _ from h)⟩
theorem fmin (f : FmtA) : Statement (.fmin f) :=
  ⟨by have := encA_le f; show 70 * 16777216 + encA f < 4294967296; omega,
    fun _ h => nomatch (show none = some _ from h)⟩
theorem fmax (f : FmtA) : Statement (.fmax f) :=
  ⟨by have := encA_le f; show 71 * 16777216 + encA f < 4294967296; omega,
    fun _ h => nomatch (show none = some _ from h)⟩
theorem fcmp (f : FmtPF) : Statement (.fcmp f) :=
  ⟨by have := encPF_le f; show 72 * 16777216 + encPF f < 4294967296; omega,
    fun _ h => nomatch (show none = some _ from h)⟩
theorem fabs (f : FmtU) : Statement (.fabs f) :=
  ⟨by have := encU_le f; show 73 * 16777216 + encU f < 4294967296; omega,
    fun _ h => nomatch (show none = some _ from h)⟩
theorem fneg (f : FmtU) : Statement (.fneg f) :=
  ⟨by have := encU_le f; show 74 * 16777216 + encU f < 4294967296; omega,
    fun _ h => nomatch (show none = some _ from h)⟩
theorem fclass (f : FmtU) : Statement (.fclass f) :=
  ⟨by have := encU_le f; show 75 * 16777216 + encU f < 4294967296; omega,
    fun _ h => nomatch (show none = some _ from h)⟩
theorem fscale (f : FmtA) : Statement (.fscale f) :=
  ⟨by have := encA_le f; show 76 * 16777216 + encA f < 4294967296; omega,
    fun _ h => nomatch (show none = some _ from h)⟩
theorem fround (g : Guard) (d : Reg) (a : Reg) (fa : Bool) (mode : RMode) : Statement (.fround g d a fa mode) :=
  ⟨by have := Bool.toNat_le fa; have := RMode_code_le mode; have := encGuard_le g; show 77 * 16777216 + encGuard g + d.val * 16384 + a.val * 256 + fa.toNat * 2 + mode.code * 4 < 4294967296; omega,
    fun _ h => nomatch (show none = some _ from h)⟩
theorem faddH2 (f : FmtA) : Statement (.faddH2 f) :=
  ⟨by have := encA_le f; show 80 * 16777216 + encA f < 4294967296; omega,
    fun _ h => nomatch (show none = some _ from h)⟩
theorem fmulH2 (f : FmtA) : Statement (.fmulH2 f) :=
  ⟨by have := encA_le f; show 81 * 16777216 + encA f < 4294967296; omega,
    fun _ h => nomatch (show none = some _ from h)⟩
theorem ffmaH2 (f : FmtA) : Statement (.ffmaH2 f) :=
  ⟨by have := encA_le f; show 82 * 16777216 + encA f < 4294967296; omega,
    fun _ h => nomatch (show none = some _ from h)⟩
theorem fminH2 (f : FmtA) : Statement (.fminH2 f) :=
  ⟨by have := encA_le f; show 83 * 16777216 + encA f < 4294967296; omega,
    fun _ h => nomatch (show none = some _ from h)⟩
theorem fmaxH2 (f : FmtA) : Statement (.fmaxH2 f) :=
  ⟨by have := encA_le f; show 84 * 16777216 + encA f < 4294967296; omega,
    fun _ h => nomatch (show none = some _ from h)⟩
theorem fcmpH2 (f : FmtPF) : Statement (.fcmpH2 f) :=
  ⟨by have := encPF_le f; show 85 * 16777216 + encPF f < 4294967296; omega,
    fun _ h => nomatch (show none = some _ from h)⟩
theorem faddB2 (f : FmtA) : Statement (.faddB2 f) :=
  ⟨by have := encA_le f; show 88 * 16777216 + encA f < 4294967296; omega,
    fun _ h => nomatch (show none = some _ from h)⟩
theorem fmulB2 (f : FmtA) : Statement (.fmulB2 f) :=
  ⟨by have := encA_le f; show 89 * 16777216 + encA f < 4294967296; omega,
    fun _ h => nomatch (show none = some _ from h)⟩
theorem ffmaB2 (f : FmtA) : Statement (.ffmaB2 f) :=
  ⟨by have := encA_le f; show 90 * 16777216 + encA f < 4294967296; omega,
    fun _ h => nomatch (show none = some _ from h)⟩
theorem fminB2 (f : FmtA) : Statement (.fminB2 f) :=
  ⟨by have := encA_le f; show 91 * 16777216 + encA f < 4294967296; omega,
    fun _ h => nomatch (show none = some _ from h)⟩
theorem fmaxB2 (f : FmtA) : Statement (.fmaxB2 f) :=
  ⟨by have := encA_le f; show 92 * 16777216 + encA f < 4294967296; omega,
    fun _ h => nomatch (show none = some _ from h)⟩
theorem fcmpB2 (f : FmtPF) : Statement (.fcmpB2 f) :=
  ⟨by have := encPF_le f; show 93 * 16777216 + encPF f < 4294967296; omega,
    fun _ h => nomatch (show none = some _ from h)⟩
theorem frcp (f : FmtU) : Statement (.frcp f) :=
  ⟨by have := encU_le f; show 96 * 16777216 + encU f < 4294967296; omega,
    fun _ h => nomatch (show none = some _ from h)⟩
theorem frsq (f : FmtU) : Statement (.frsq f) :=
  ⟨by have := encU_le f; show 97 * 16777216 + encU f < 4294967296; omega,
    fun _ h => nomatch (show none = some _ from h)⟩
theorem fsqrt (f : FmtU) : Statement (.fsqrt f) :=
  ⟨by have := encU_le f; show 98 * 16777216 + encU f < 4294967296; omega,
    fun _ h => nomatch (show none = some _ from h)⟩
theorem fex2 (f : FmtU) : Statement (.fex2 f) :=
  ⟨by have := encU_le f; show 99 * 16777216 + encU f < 4294967296; omega,
    fun _ h => nomatch (show none = some _ from h)⟩
theorem flg2 (f : FmtU) : Statement (.flg2 f) :=
  ⟨by have := encU_le f; show 100 * 16777216 + encU f < 4294967296; omega,
    fun _ h => nomatch (show none = some _ from h)⟩
theorem fsin (f : FmtU) : Statement (.fsin f) :=
  ⟨by have := encU_le f; show 101 * 16777216 + encU f < 4294967296; omega,
    fun _ h => nomatch (show none = some _ from h)⟩
theorem fcos (f : FmtU) : Statement (.fcos f) :=
  ⟨by have := encU_le f; show 102 * 16777216 + encU f < 4294967296; omega,
    fun _ h => nomatch (show none = some _ from h)⟩
theorem ftanh (f : FmtU) : Statement (.ftanh f) :=
  ⟨by have := encU_le f; show 103 * 16777216 + encU f < 4294967296; omega,
    fun _ h => nomatch (show none = some _ from h)⟩
theorem cvt (g : Guard) (d : Reg) (a : Reg) (fa : Bool) (dst : CvtType) (src : CvtType) : Statement (.cvt g d a fa dst src) :=
  ⟨by have := CvtType_index_le dst; have := Bool.toNat_le fa; have := CvtType_index_le src; have := encGuard_le g; show 104 * 16777216 + encGuard g + d.val * 16384 + a.val * 256 + fa.toNat * 2 + dst.index * 32 + src.index * 4 < 4294967296; omega,
    fun _ h => nomatch (show none = some _ from h)⟩
theorem cvtpk (g : Guard) (d : Reg) (a : Reg) (fa : Bool) (sel : PackSel) : Statement (.cvtpk g d a fa sel) :=
  ⟨by have := Bool.toNat_le fa; have := PackSel_code_le sel; have := encGuard_le g; show 105 * 16777216 + encGuard g + d.val * 16384 + a.val * 256 + fa.toNat * 2 + sel.code * 4 < 4294967296; omega,
    fun _ h => nomatch (show none = some _ from h)⟩
theorem fdot2B2 (f : FmtA) : Statement (.fdot2B2 f) :=
  ⟨by have := encA_le f; show 107 * 16777216 + encA f < 4294967296; omega,
    fun _ h => nomatch (show none = some _ from h)⟩
theorem cvtx (g : Guard) (d : Reg) (a : Reg) (fa : Bool) (dst : CvtType) (src : CvtType) (mode : RMode) (sat : Bool) (useSlot : Bool) (slot : Fin 8) : Statement (.cvtx g d a fa dst src mode sat useSlot slot) :=
  ⟨by have := Bool.toNat_le fa; have := encGuard_le g; show 226 * 16777216 + encGuard g + d.val * 16384 + a.val * 256 + fa.toNat * 2 < 4294967296; omega,
    fun _ h => by obtain rfl := Option.some.inj h; have := CvtType_code_le dst; have := RMode_code_le mode; have := Bool.toNat_le sat; have := CvtType_code_le src; have := Bool.toNat_le useSlot; omega⟩
theorem ffma4 (f : FmtA) (c : Reg) (fc : Bool) (mode : RMode) (ty : Ffma4Type) (np : Bool) (nc : Bool) : Statement (.ffma4 f c fc mode ty np nc) :=
  ⟨by have := encA_le f; show 230 * 16777216 + encA f < 4294967296; omega,
    fun _ h => by obtain rfl := Option.some.inj h; have := Bool.toNat_le fc; have := RMode_code_le mode; have := Bool.toNat_le nc; have := Bool.toNat_le np; have := Ffma4Type_code_le ty; omega⟩
theorem nop (g : Guard) : Statement (.nop g) :=
  ⟨by have := encGuard_le g; show 112 * 16777216 + encGuard g < 4294967296; omega,
    fun _ h => nomatch (show none = some _ from h)⟩
theorem bra (g : Guard) (disp : BitVec 20) : Statement (.bra g disp) :=
  ⟨by have := encGuard_le g; show 113 * 16777216 + encGuard g + disp.toNat < 4294967296; omega,
    fun _ h => nomatch (show none = some _ from h)⟩
theorem brx (g : Guard) (a : Reg) (fa : Bool) : Statement (.brx g a fa) :=
  ⟨by have := Bool.toNat_le fa; have := encGuard_le g; show 114 * 16777216 + encGuard g + a.val * 256 + fa.toNat * 2 < 4294967296; omega,
    fun _ h => nomatch (show none = some _ from h)⟩
theorem bru (g : Guard) (sa : Reg) (nz : Bool) (fs : Bool) (disp : BitVec 32) : Statement (.bru g sa nz fs disp) :=
  ⟨by have := Bool.toNat_le fs; have := Bool.toNat_le nz; have := encGuard_le g; show 115 * 16777216 + encGuard g + sa.val * 16384 + nz.toNat * 8192 + fs.toNat * 4096 < 4294967296; omega,
    fun _ h => by obtain rfl := Option.some.inj h; omega⟩
theorem call (g : Guard) (fc : Fin 8) (disp : BitVec 17) : Statement (.call g fc disp) :=
  ⟨by have := encGuard_le g; show 116 * 16777216 + encGuard g + fc.val * 131072 + disp.toNat < 4294967296; omega,
    fun _ h => nomatch (show none = some _ from h)⟩
theorem callx (g : Guard) (fc : Fin 8) (a : Reg) (fa : Bool) : Statement (.callx g fc a fa) :=
  ⟨by have := Bool.toNat_le fa; have := encGuard_le g; show 117 * 16777216 + encGuard g + fc.val * 131072 + a.val * 256 + fa.toNat * 2 < 4294967296; omega,
    fun _ h => nomatch (show none = some _ from h)⟩
theorem ret (g : Guard) : Statement (.ret g) :=
  ⟨by have := encGuard_le g; show 118 * 16777216 + encGuard g < 4294967296; omega,
    fun _ h => nomatch (show none = some _ from h)⟩
theorem spawn (g : Guard) (d : Reg) (wo : Fin 64) (disp : BitVec 32) : Statement (.spawn g d wo disp) :=
  ⟨by have := encGuard_le g; show 119 * 16777216 + encGuard g + d.val * 16384 + wo.val * 256 < 4294967296; omega,
    fun _ h => by obtain rfl := Option.some.inj h; omega⟩
theorem quit (g : Guard) : Statement (.quit g) :=
  ⟨by have := encGuard_le g; show 120 * 16777216 + encGuard g < 4294967296; omega,
    fun _ h => nomatch (show none = some _ from h)⟩
theorem yieldTurn (g : Guard) : Statement (.yieldTurn g) :=
  ⟨by have := encGuard_le g; show 121 * 16777216 + encGuard g < 4294967296; omega,
    fun _ h => nomatch (show none = some _ from h)⟩
theorem trap (g : Guard) (code : BitVec 8) : Statement (.trap g code) :=
  ⟨by have := encGuard_le g; show 122 * 16777216 + encGuard g + code.toNat < 4294967296; omega,
    fun _ h => nomatch (show none = some _ from h)⟩
theorem bkpt (g : Guard) (code : BitVec 8) : Statement (.bkpt g code) :=
  ⟨by have := encGuard_le g; show 123 * 16777216 + encGuard g + code.toNat < 4294967296; omega,
    fun _ h => nomatch (show none = some _ from h)⟩
theorem tret (g : Guard) : Statement (.tret g) :=
  ⟨by have := encGuard_le g; show 124 * 16777216 + encGuard g < 4294967296; omega,
    fun _ h => nomatch (show none = some _ from h)⟩
theorem ldB8 (f : FmtM) : Statement (.ldB8 f) :=
  ⟨by have := encM_le f; show 128 * 16777216 + encM f < 4294967296; omega,
    fun _ h => nomatch (show none = some _ from h)⟩
theorem ldS8 (f : FmtM) : Statement (.ldS8 f) :=
  ⟨by have := encM_le f; show 129 * 16777216 + encM f < 4294967296; omega,
    fun _ h => nomatch (show none = some _ from h)⟩
theorem ldB16 (f : FmtM) : Statement (.ldB16 f) :=
  ⟨by have := encM_le f; show 130 * 16777216 + encM f < 4294967296; omega,
    fun _ h => nomatch (show none = some _ from h)⟩
theorem ldS16 (f : FmtM) : Statement (.ldS16 f) :=
  ⟨by have := encM_le f; show 131 * 16777216 + encM f < 4294967296; omega,
    fun _ h => nomatch (show none = some _ from h)⟩
theorem ldB32 (f : FmtM) : Statement (.ldB32 f) :=
  ⟨by have := encM_le f; show 132 * 16777216 + encM f < 4294967296; omega,
    fun _ h => nomatch (show none = some _ from h)⟩
theorem ldB64 (f : FmtM) : Statement (.ldB64 f) :=
  ⟨by have := encM_le f; show 133 * 16777216 + encM f < 4294967296; omega,
    fun _ h => nomatch (show none = some _ from h)⟩
theorem ldB128 (f : FmtM) : Statement (.ldB128 f) :=
  ⟨by have := encM_le f; show 134 * 16777216 + encM f < 4294967296; omega,
    fun _ h => nomatch (show none = some _ from h)⟩
theorem stB8 (f : FmtM) : Statement (.stB8 f) :=
  ⟨by have := encM_le f; show 136 * 16777216 + encM f < 4294967296; omega,
    fun _ h => nomatch (show none = some _ from h)⟩
theorem stB16 (f : FmtM) : Statement (.stB16 f) :=
  ⟨by have := encM_le f; show 137 * 16777216 + encM f < 4294967296; omega,
    fun _ h => nomatch (show none = some _ from h)⟩
theorem stB32 (f : FmtM) : Statement (.stB32 f) :=
  ⟨by have := encM_le f; show 138 * 16777216 + encM f < 4294967296; omega,
    fun _ h => nomatch (show none = some _ from h)⟩
theorem stB64 (f : FmtM) : Statement (.stB64 f) :=
  ⟨by have := encM_le f; show 139 * 16777216 + encM f < 4294967296; omega,
    fun _ h => nomatch (show none = some _ from h)⟩
theorem stB128 (f : FmtM) : Statement (.stB128 f) :=
  ⟨by have := encM_le f; show 140 * 16777216 + encM f < 4294967296; omega,
    fun _ h => nomatch (show none = some _ from h)⟩
theorem lds (f : FmtM) : Statement (.lds f) :=
  ⟨by have := encM_le f; show 141 * 16777216 + encM f < 4294967296; omega,
    fun _ h => nomatch (show none = some _ from h)⟩
theorem sts (f : FmtM) : Statement (.sts f) :=
  ⟨by have := encM_le f; show 142 * 16777216 + encM f < 4294967296; omega,
    fun _ h => nomatch (show none = some _ from h)⟩
theorem ldc (f : FmtM) : Statement (.ldc f) :=
  ⟨by have := encM_le f; show 143 * 16777216 + encM f < 4294967296; omega,
    fun _ h => nomatch (show none = some _ from h)⟩
theorem stc (f : FmtM) : Statement (.stc f) :=
  ⟨by have := encM_le f; show 144 * 16777216 + encM f < 4294967296; omega,
    fun _ h => nomatch (show none = some _ from h)⟩
theorem ldx (f : FmtM) (off : BitVec 24) (size : MemSize) (pol : Policy) (scope : Scope) : Statement (.ldx f off size pol scope) :=
  ⟨by have := encM_le f; show 227 * 16777216 + encM f < 4294967296; omega,
    fun _ h => by obtain rfl := Option.some.inj h; have := Policy_code_le pol; have := Scope_code_le scope; have := MemSize_code_le size; omega⟩
theorem stx (f : FmtM) (off : BitVec 24) (size : MemSize) (pol : Policy) (scope : Scope) : Statement (.stx f off size pol scope) :=
  ⟨by have := encM_le f; show 228 * 16777216 + encM f < 4294967296; omega,
    fun _ h => by obtain rfl := Option.some.inj h; have := Policy_code_le pol; have := Scope_code_le scope; have := MemSize_code_le size; omega⟩
theorem lea (f : FmtM) (off : BitVec 24) (size : MemSize) : Statement (.lea f off size) :=
  ⟨by have := encM_le f; show 231 * 16777216 + encM f < 4294967296; omega,
    fun _ h => by obtain rfl := Option.some.inj h; have := MemSize_code_le size; omega⟩
theorem atom (g : Guard) (d : Reg) (m : AtomAddr) (b : Reg) (fb : Bool) (op : AtomOp) (ty : AtomType) : Statement (.atom g d m b fb op ty) :=
  ⟨by have := encAtom0_le m; have := encGuard_le g; show 145 * 16777216 + encGuard g + d.val * 16384 + encAtom0 m < 4294967296; omega,
    fun _ h => by obtain rfl := Option.some.inj h; have := Bool.toNat_le fb; have := AtomOp_code_le op; have := AtomType_code_le ty; have := encAtom1_le m; omega⟩
theorem atomcas (g : Guard) (d : Reg) (m : AtomAddr) (b : Reg) (fb : Bool) (c : Reg) (fc : Bool) (ty : CasType) (pd : Pred) : Statement (.atomcas g d m b fb c fc ty pd) :=
  ⟨by have := encAtom0_le m; have := encGuard_le g; show 146 * 16777216 + encGuard g + d.val * 16384 + encAtom0 m < 4294967296; omega,
    fun _ h => by obtain rfl := Option.some.inj h; have := Bool.toNat_le fb; have := Bool.toNat_le fc; have := CasType_code_le ty; have := encAtom1_le m; omega⟩
theorem red (g : Guard) (m : AtomAddr) (b : Reg) (fb : Bool) (op : AtomOp) (ty : AtomType) : Statement (.red g m b fb op ty) :=
  ⟨by have := encAtom0_le m; have := encGuard_le g; show 147 * 16777216 + encGuard g + encAtom0 m < 4294967296; omega,
    fun _ h => by obtain rfl := Option.some.inj h; have := Bool.toNat_le fb; have := AtomOp_code_le op; have := AtomType_code_le ty; have := encAtom1_le m; omega⟩
theorem fence (g : Guard) (scope : Scope) : Statement (.fence g scope) :=
  ⟨by have := Scope_code_le scope; have := encGuard_le g; show 148 * 16777216 + encGuard g + scope.code < 4294967296; omega,
    fun _ h => nomatch (show none = some _ from h)⟩
theorem cctl (g : Guard) (op : CctlOp) (vo : Reg) (sbase : Reg) (fa : Bool) (scale : Bool) : Statement (.cctl g op vo sbase fa scale) :=
  ⟨by have := Bool.toNat_le fa; have := CctlOp_code_le op; have := Bool.toNat_le scale; have := encGuard_le g; show 149 * 16777216 + encGuard g + op.code * 16384 + vo.val * 256 + sbase.val * 4 + fa.toNat * 2 + scale.toNat < 4294967296; omega,
    fun _ h => nomatch (show none = some _ from h)⟩
theorem icinv (g : Guard) (scope : Scope) (vo : Reg) (sbase : Reg) (fa : Bool) (scale : Bool) : Statement (.icinv g scope vo sbase fa scale) :=
  ⟨by have := Bool.toNat_le fa; have := Bool.toNat_le scale; have := Scope_code_le scope; have := encGuard_le g; show 150 * 16777216 + encGuard g + scope.code * 16384 + vo.val * 256 + sbase.val * 4 + fa.toNat * 2 + scale.toNat < 4294967296; omega,
    fun _ h => nomatch (show none = some _ from h)⟩
theorem prefetch (g : Guard) (sliceOnly : Bool) (vo : Reg) (sbase : Reg) (fa : Bool) (scale : Bool) : Statement (.prefetch g sliceOnly vo sbase fa scale) :=
  ⟨by have := Bool.toNat_le fa; have := Bool.toNat_le scale; have := Bool.toNat_le sliceOnly; have := encGuard_le g; show 151 * 16777216 + encGuard g + sliceOnly.toNat * 262144 + vo.val * 256 + sbase.val * 4 + fa.toNat * 2 + scale.toNat < 4294967296; omega,
    fun _ h => nomatch (show none = some _ from h)⟩
theorem shflIdx (f : FmtA) : Statement (.shflIdx f) :=
  ⟨by have := encA_le f; show 176 * 16777216 + encA f < 4294967296; omega,
    fun _ h => nomatch (show none = some _ from h)⟩
theorem shflUp (f : FmtA) : Statement (.shflUp f) :=
  ⟨by have := encA_le f; show 177 * 16777216 + encA f < 4294967296; omega,
    fun _ h => nomatch (show none = some _ from h)⟩
theorem shflDown (f : FmtA) : Statement (.shflDown f) :=
  ⟨by have := encA_le f; show 178 * 16777216 + encA f < 4294967296; omega,
    fun _ h => nomatch (show none = some _ from h)⟩
theorem shflXor (f : FmtA) : Statement (.shflXor f) :=
  ⟨by have := encA_le f; show 179 * 16777216 + encA f < 4294967296; omega,
    fun _ h => nomatch (show none = some _ from h)⟩
theorem vote (g : Guard) (pd : Pred) (mode : VoteMode) (ps : Pred) : Statement (.vote g pd mode ps) :=
  ⟨by have := VoteMode_code_le mode; have := encGuard_le g; show 180 * 16777216 + encGuard g + pd.val * 131072 + mode.code * 16384 + ps.val * 2048 < 4294967296; omega,
    fun _ h => nomatch (show none = some _ from h)⟩
theorem ballot (g : Guard) (d : Reg) (ps : Pred) : Statement (.ballot g d ps) :=
  ⟨by have := encGuard_le g; show 181 * 16777216 + encGuard g + d.val * 16384 + ps.val * 2048 < 4294967296; omega,
    fun _ h => nomatch (show none = some _ from h)⟩
theorem matchLanes (f : FmtU) : Statement (.matchLanes f) :=
  ⟨by have := encU_le f; show 182 * 16777216 + encU f < 4294967296; omega,
    fun _ h => nomatch (show none = some _ from h)⟩
theorem elect (g : Guard) (pd : Pred) (d : Reg) : Statement (.elect g pd d) :=
  ⟨by have := encGuard_le g; show 183 * 16777216 + encGuard g + pd.val * 131072 + d.val * 256 < 4294967296; omega,
    fun _ h => nomatch (show none = some _ from h)⟩
theorem redux (f : FmtU) (op : RedOp) (ty : RedType) (mode : RMode) : Statement (.redux f op ty mode) :=
  ⟨by have := encU_le f; show 184 * 16777216 + encU f < 4294967296; omega,
    fun _ h => by obtain rfl := Option.some.inj h; have := RMode_code_le mode; have := RedOp_code_le op; have := RedType_code_le ty; omega⟩
theorem scan (f : FmtU) (op : RedOp) (ty : RedType) (mode : RMode) (ex : Bool) : Statement (.scan f op ty mode ex) :=
  ⟨by have := encU_le f; show 185 * 16777216 + encU f < 4294967296; omega,
    fun _ h => by obtain rfl := Option.some.inj h; have := Bool.toNat_le ex; have := RMode_code_le mode; have := RedOp_code_le op; have := RedType_code_le ty; omega⟩
theorem readlane (g : Guard) (d : Reg) (a : Reg) (sb : Reg) (fa : Bool) (fb : Bool) : Statement (.readlane g d a sb fa fb) :=
  ⟨by have := Bool.toNat_le fa; have := Bool.toNat_le fb; have := encGuard_le g; show 186 * 16777216 + encGuard g + d.val * 16384 + a.val * 256 + sb.val * 4 + fa.toNat * 2 + fb.toNat < 4294967296; omega,
    fun _ h => nomatch (show none = some _ from h)⟩
theorem barArrive (g : Guard) (o : BarOp) : Statement (.barArrive g o) :=
  ⟨by have := encBar_le o; have := encGuard_le g; show 192 * 16777216 + encGuard g + encBar o < 4294967296; omega,
    fun _ h => nomatch (show none = some _ from h)⟩
theorem barWait (g : Guard) (o : BarOp) : Statement (.barWait g o) :=
  ⟨by have := encBar_le o; have := encGuard_le g; show 193 * 16777216 + encGuard g + encBar o < 4294967296; omega,
    fun _ h => nomatch (show none = some _ from h)⟩
theorem barSync (g : Guard) (o : BarOp) : Statement (.barSync g o) :=
  ⟨by have := encBar_le o; have := encGuard_le g; show 194 * 16777216 + encGuard g + encBar o < 4294967296; omega,
    fun _ h => nomatch (show none = some _ from h)⟩
theorem barInit (g : Guard) (a : Reg) (o : BarOp) : Statement (.barInit g a o) :=
  ⟨by have := encBar_le o; have := encGuard_le g; show 195 * 16777216 + encGuard g + a.val * 256 + encBar o < 4294967296; omega,
    fun _ h => nomatch (show none = some _ from h)⟩
theorem barDrop (g : Guard) (o : BarOp) : Statement (.barDrop g o) :=
  ⟨by have := encBar_le o; have := encGuard_le g; show 196 * 16777216 + encGuard g + encBar o < 4294967296; omega,
    fun _ h => nomatch (show none = some _ from h)⟩
theorem barTest (g : Guard) (pd : Pred) (o : BarOp) : Statement (.barTest g pd o) :=
  ⟨by have := encBar_le o; have := encGuard_le g; show 197 * 16777216 + encGuard g + pd.val * 131072 + encBar o < 4294967296; omega,
    fun _ h => nomatch (show none = some _ from h)⟩
theorem deqPush (g : Guard) (vs : Reg) (a : Reg) (fa : Bool) : Statement (.deqPush g vs a fa) :=
  ⟨by have := Bool.toNat_le fa; have := encGuard_le g; show 200 * 16777216 + encGuard g + vs.val * 16384 + a.val * 256 + fa.toNat * 2 < 4294967296; omega,
    fun _ h => nomatch (show none = some _ from h)⟩
theorem deqPop (g : Guard) (d : Reg) (vs : Reg) : Statement (.deqPop g d vs) :=
  ⟨by have := encGuard_le g; show 201 * 16777216 + encGuard g + d.val * 16384 + vs.val * 4 < 4294967296; omega,
    fun _ h => nomatch (show none = some _ from h)⟩
theorem deqSteal (g : Guard) (d : Reg) (vs : Reg) : Statement (.deqSteal g d vs) :=
  ⟨by have := encGuard_le g; show 202 * 16777216 + encGuard g + d.val * 16384 + vs.val * 4 < 4294967296; omega,
    fun _ h => nomatch (show none = some _ from h)⟩
theorem launch (g : Guard) (d : Reg) (a : Reg) (sb : Reg) (fa : Bool) (fb : Bool) : Statement (.launch g d a sb fa fb) :=
  ⟨by have := Bool.toNat_le fa; have := Bool.toNat_le fb; have := encGuard_le g; show 203 * 16777216 + encGuard g + d.val * 16384 + a.val * 256 + sb.val * 4 + fa.toNat * 2 + fb.toNat < 4294967296; omega,
    fun _ h => nomatch (show none = some _ from h)⟩
theorem regGrow (g : Guard) (n : BitVec 8) : Statement (.regGrow g n) :=
  ⟨by have := encGuard_le g; show 204 * 16777216 + encGuard g + n.toNat < 4294967296; omega,
    fun _ h => nomatch (show none = some _ from h)⟩
theorem regShrink (g : Guard) (n : BitVec 8) : Statement (.regShrink g n) :=
  ⟨by have := encGuard_le g; show 205 * 16777216 + encGuard g + n.toNat < 4294967296; omega,
    fun _ h => nomatch (show none = some _ from h)⟩
theorem step (g : Guard) (d : Reg) (sb : Reg) (fb : Bool) : Statement (.step g d sb fb) :=
  ⟨by have := Bool.toNat_le fb; have := encGuard_le g; show 206 * 16777216 + encGuard g + d.val * 16384 + sb.val * 4 + fb.toNat < 4294967296; omega,
    fun _ h => nomatch (show none = some _ from h)⟩
theorem tcfg (g : Guard) (t : TileReg) (sb : Reg) (fb : Bool) : Statement (.tcfg g t sb fb) :=
  ⟨by have := Bool.toNat_le fb; have := encGuard_le g; show 208 * 16777216 + encGuard g + t.val * 16384 + sb.val * 4 + fb.toNat < 4294967296; omega,
    fun _ h => nomatch (show none = some _ from h)⟩
theorem tstat (g : Guard) (d : Reg) (t : TileReg) : Statement (.tstat g d t) :=
  ⟨by have := encGuard_le g; show 209 * 16777216 + encGuard g + d.val * 16384 + t.val * 256 < 4294967296; omega,
    fun _ h => nomatch (show none = some _ from h)⟩
theorem tzero (g : Guard) (t : TileReg) : Statement (.tzero g t) :=
  ⟨by have := encGuard_le g; show 210 * 16777216 + encGuard g + t.val < 4294967296; omega,
    fun _ h => nomatch (show none = some _ from h)⟩
theorem tfree (g : Guard) (t : TileReg) : Statement (.tfree g t) :=
  ⟨by have := encGuard_le g; show 211 * 16777216 + encGuard g + t.val < 4294967296; omega,
    fun _ h => nomatch (show none = some _ from h)⟩
theorem mma (g : Guard) (sp : Reg) (ta : TileReg) (tb : TileReg) (slot : Fin 8) (opn : Bool) (cls : Bool) (neg : Bool) : Statement (.mma g sp ta tb slot opn cls neg) :=
  ⟨by have := encGuard_le g; show 212 * 16777216 + encGuard g + sp.val * 16384 + ta.val * 1024 + tb.val * 64 < 4294967296; omega,
    fun _ h => by obtain rfl := Option.some.inj h; have := Bool.toNat_le cls; have := Bool.toNat_le neg; have := Bool.toNat_le opn; omega⟩
theorem epi (g : Guard) (sp : Reg) (t : TileReg) (dst : Endpoint) (act : ActFn) (fslot : Fin 8) (rsc : Bool) (csc : Bool) (rbi : Bool) (cbi : Bool) (pol : Policy) : Statement (.epi g sp t dst act fslot rsc csc rbi cbi pol) :=
  ⟨by have := encGuard_le g; show 213 * 16777216 + encGuard g + sp.val * 16384 + t.val * 1024 < 4294967296; omega,
    fun _ h => by obtain rfl := Option.some.inj h; have := ActFn_code_le act; have := Bool.toNat_le cbi; have := Bool.toNat_le csc; have := Endpoint_code_le dst; have := Policy_code_le pol; have := Bool.toNat_le rbi; have := Bool.toNat_le rsc; omega⟩
theorem copy (g : Guard) (sp : Reg) (t : TileReg) (src : Endpoint) (dst : Endpoint) (mode : CopyMode) (esz : Fin 8) (pol : Policy) : Statement (.copy g sp t src dst mode esz pol) :=
  ⟨by have := encGuard_le g; show 214 * 16777216 + encGuard g + sp.val * 16384 + t.val * 1024 < 4294967296; omega,
    fun _ h => by obtain rfl := Option.some.inj h; have := Endpoint_code_le dst; have := CopyMode_code_le mode; have := Policy_code_le pol; have := Endpoint_code_le src; omega⟩
theorem tcvt (g : Guard) (m : Bool) (mode : RMode) (ta : TileReg) (t : TileReg) : Statement (.tcvt g m mode ta t) :=
  ⟨by have := Bool.toNat_le m; have := RMode_code_le mode; have := encGuard_le g; show 215 * 16777216 + encGuard g + m.toNat * 131072 + mode.code * 16384 + ta.val * 16 + t.val < 4294967296; omega,
    fun _ h => nomatch (show none = some _ from h)⟩
theorem tmovGet (g : Guard) (d : Reg) (t : TileReg) (b : Reg) (fb : Bool) : Statement (.tmovGet g d t b fb) :=
  ⟨by have := Bool.toNat_le fb; have := encGuard_le g; show 216 * 16777216 + encGuard g + d.val * 16384 + t.val * 256 + b.val * 4 + fb.toNat < 4294967296; omega,
    fun _ h => nomatch (show none = some _ from h)⟩
theorem tmovSet (g : Guard) (v : Reg) (t : TileReg) (b : Reg) (fa : Bool) (fb : Bool) : Statement (.tmovSet g v t b fa fb) :=
  ⟨by have := Bool.toNat_le fa; have := Bool.toNat_le fb; have := encGuard_le g; show 216 * 16777216 + encGuard g + v.val * 16384 + t.val * 256 + b.val * 4 + fa.toNat * 2 + fb.toNat + 8192 < 4294967296; omega,
    fun _ h => nomatch (show none = some _ from h)⟩
theorem namePub (g : Guard) (t : TileReg) (sb : Reg) (fb : Bool) : Statement (.namePub g t sb fb) :=
  ⟨by have := Bool.toNat_le fb; have := encGuard_le g; show 240 * 16777216 + encGuard g + t.val * 16384 + sb.val * 4 + fb.toNat < 4294967296; omega,
    fun _ h => nomatch (show none = some _ from h)⟩
theorem nameGet (g : Guard) (t : TileReg) (sb : Reg) (fb : Bool) : Statement (.nameGet g t sb fb) :=
  ⟨by have := Bool.toNat_le fb; have := encGuard_le g; show 241 * 16777216 + encGuard g + t.val * 16384 + sb.val * 4 + fb.toNat < 4294967296; omega,
    fun _ h => nomatch (show none = some _ from h)⟩
theorem nameRetire (g : Guard) (sb : Reg) (fb : Bool) : Statement (.nameRetire g sb fb) :=
  ⟨by have := Bool.toNat_le fb; have := encGuard_le g; show 242 * 16777216 + encGuard g + sb.val * 4 + fb.toNat < 4294967296; omega,
    fun _ h => nomatch (show none = some _ from h)⟩
theorem nameDrop (g : Guard) (t : TileReg) : Statement (.nameDrop g t) :=
  ⟨by have := encGuard_le g; show 243 * 16777216 + encGuard g + t.val * 16384 < 4294967296; omega,
    fun _ h => nomatch (show none = some _ from h)⟩
theorem pwrHint (g : Guard) (h : PwrHint) : Statement (.pwrHint g h) :=
  ⟨by have := PwrHint_code_le h; have := encGuard_le g; show 248 * 16777216 + encGuard g + h.code < 4294967296; omega,
    fun _ h => nomatch (show none = some _ from h)⟩
theorem lanechk (g : Guard) (d : Reg) (groups : BitVec 4) : Statement (.lanechk g d groups) :=
  ⟨by have := encGuard_le g; show 249 * 16777216 + encGuard g + d.val * 16384 + groups.toNat < 4294967296; omega,
    fun _ h => nomatch (show none = some _ from h)⟩
theorem longLatencyWriteback (lid : BitVec 32) (w num lane : Nat) : Statement (.longLatencyWriteback lid w num lane) :=
  ⟨Nat.two_pow_pos 32,
    fun _ h => nomatch (show none = some _ from h)⟩
theorem steeringAdoption (lid : BitVec 32) (w : Nat) (bad : List (Nat × Nat)) : Statement (.steeringAdoption lid w bad) :=
  ⟨Nat.two_pow_pos 32,
    fun _ h => nomatch (show none = some _ from h)⟩
theorem domainBarrierArrival (lid : BitVec 32) (index kind value : Nat) : Statement (.domainBarrierArrival lid index kind value) :=
  ⟨Nat.two_pow_pos 32,
    fun _ h => nomatch (show none = some _ from h)⟩
theorem domainBarrierCompletion (lid : BitVec 32) (index order : Nat) : Statement (.domainBarrierCompletion lid index order) :=
  ⟨Nat.two_pow_pos 32,
    fun _ h => nomatch (show none = some _ from h)⟩
theorem launchRecordRead (queue others : Nat) : Statement (.launchRecordRead queue others) :=
  ⟨Nat.two_pow_pos 32,
    fun _ h => nomatch (show none = some _ from h)⟩
theorem qctlWrite (queue : Nat) (v : BitVec 32) : Statement (.qctlWrite queue v) :=
  ⟨Nat.two_pow_pos 32,
    fun _ h => nomatch (show none = some _ from h)⟩
theorem detlidWrite (v : BitVec 32) : Statement (.detlidWrite v) :=
  ⟨Nat.two_pow_pos 32,
    fun _ h => nomatch (show none = some _ from h)⟩
theorem viollidWrite (v : BitVec 32) : Statement (.viollidWrite v) :=
  ⟨Nat.two_pow_pos 32,
    fun _ h => nomatch (show none = some _ from h)⟩
theorem admviolRead (cluster : Nat) : Statement (.admviolRead cluster) :=
  ⟨Nat.two_pow_pos 32,
    fun _ h => nomatch (show none = some _ from h)⟩
theorem regGrowGrant (core : Nat) : Statement (.regGrowGrant core) :=
  ⟨Nat.two_pow_pos 32,
    fun _ h => nomatch (show none = some _ from h)⟩
theorem stallSwapOut (core : Nat) : Statement (.stallSwapOut core) :=
  ⟨Nat.two_pow_pos 32,
    fun _ h => nomatch (show none = some _ from h)⟩
theorem stepBoundary (lid : BitVec 32) : Statement (.stepBoundary lid) :=
  ⟨Nat.two_pow_pos 32,
    fun _ h => nomatch (show none = some _ from h)⟩
theorem checkpointCopyDone (copy written : Nat) : Statement (.checkpointCopyDone copy written) :=
  ⟨Nat.two_pow_pos 32,
    fun _ h => nomatch (show none = some _ from h)⟩
theorem bankroleWrite (core : Nat) (high : Bool) (v : BitVec 32) : Statement (.bankroleWrite core high v) :=
  ⟨Nat.two_pow_pos 32,
    fun _ h => nomatch (show none = some _ from h)⟩
theorem unitRetirement (core kind unit : Nat) : Statement (.unitRetirement core kind unit) :=
  ⟨Nat.two_pow_pos 32,
    fun _ h => nomatch (show none = some _ from h)⟩
theorem evacuationLineCopy (t : TableId) (bad : Bool) : Statement (.evacuationLineCopy t bad) :=
  ⟨Nat.two_pow_pos 32,
    fun _ h => nomatch (show none = some _ from h)⟩
theorem unitFailed (t : TableId) (unit : Nat) (sectors : List Nat) : Statement (.unitFailed t unit sectors) :=
  ⟨Nat.two_pow_pos 32,
    fun _ h => nomatch (show none = some _ from h)⟩
theorem pageWalk (die root va : Nat) : Statement (.pageWalk die root va) :=
  ⟨Nat.two_pow_pos 32,
    fun _ h => nomatch (show none = some _ from h)⟩
theorem tlbiGo (v : BitVec 32) : Statement (.tlbiGo v) :=
  ⟨Nat.two_pow_pos 32,
    fun _ h => nomatch (show none = some _ from h)⟩
theorem leaseRecall (line core : Nat) : Statement (.leaseRecall line core) :=
  ⟨Nat.two_pow_pos 32,
    fun _ h => nomatch (show none = some _ from h)⟩
theorem fenceResolve (lid : BitVec 32) (w : Nat) : Statement (.fenceResolve lid w) :=
  ⟨Nat.two_pow_pos 32,
    fun _ h => nomatch (show none = some _ from h)⟩
theorem speculativeRollback (lid : BitVec 32) (w line : Nat) : Statement (.speculativeRollback lid w line) :=
  ⟨Nat.two_pow_pos 32,
    fun _ h => nomatch (show none = some _ from h)⟩
theorem detAtomicApply (lid : BitVec 32) : Statement (.detAtomicApply lid) :=
  ⟨Nat.two_pow_pos 32,
    fun _ h => nomatch (show none = some _ from h)⟩
theorem storeGateRelease (lid : BitVec 32) (w num lane : Nat) : Statement (.storeGateRelease lid w num lane) :=
  ⟨Nat.two_pow_pos 32,
    fun _ h => nomatch (show none = some _ from h)⟩
theorem icinvComplete (lid : BitVec 32) (w : Nat) : Statement (.icinvComplete lid w) :=
  ⟨Nat.two_pow_pos 32,
    fun _ h => nomatch (show none = some _ from h)⟩
theorem commandAdmission (cluster : Nat) : Statement (.commandAdmission cluster) :=
  ⟨Nat.two_pow_pos 32,
    fun _ h => nomatch (show none = some _ from h)⟩
theorem engineStop (core cmd upto : Nat) : Statement (.engineStop core cmd upto) :=
  ⟨Nat.two_pow_pos 32,
    fun _ h => nomatch (show none = some _ from h)⟩
theorem engineEnd (core cmd : Nat) : Statement (.engineEnd core cmd) :=
  ⟨Nat.two_pow_pos 32,
    fun _ h => nomatch (show none = some _ from h)⟩
theorem columnResidueMismatch (core column : Nat) : Statement (.columnResidueMismatch core column) :=
  ⟨Nat.two_pow_pos 32,
    fun _ h => nomatch (show none = some _ from h)⟩
theorem mmaCompletion (core cmd energy : Nat) : Statement (.mmaCompletion core cmd energy) :=
  ⟨Nat.two_pow_pos 32,
    fun _ h => nomatch (show none = some _ from h)⟩
theorem epiCompletion (core cmd energy : Nat) : Statement (.epiCompletion core cmd energy) :=
  ⟨Nat.two_pow_pos 32,
    fun _ h => nomatch (show none = some _ from h)⟩
theorem copyCompletion (core cmd energy : Nat) : Statement (.copyCompletion core cmd energy) :=
  ⟨Nat.two_pow_pos 32,
    fun _ h => nomatch (show none = some _ from h)⟩
theorem tcvtCompletion (core cmd : Nat) : Statement (.tcvtCompletion core cmd) :=
  ⟨Nat.two_pow_pos 32,
    fun _ h => nomatch (show none = some _ from h)⟩
theorem faultRecordPost (die : Nat) : Statement (.faultRecordPost die) :=
  ⟨Nat.two_pow_pos 32,
    fun _ h => nomatch (show none = some _ from h)⟩
theorem fqctlWrite (die : Nat) (v : BitVec 32) : Statement (.fqctlWrite die v) :=
  ⟨Nat.two_pow_pos 32,
    fun _ h => nomatch (show none = some _ from h)⟩
theorem fqrespResume (die : Nat) (tag : BitVec 32) : Statement (.fqrespResume die tag) :=
  ⟨Nat.two_pow_pos 32,
    fun _ h => nomatch (show none = some _ from h)⟩
theorem fqrespDeliver (die : Nat) (tag : BitVec 32) : Statement (.fqrespDeliver die tag) :=
  ⟨Nat.two_pow_pos 32,
    fun _ h => nomatch (show none = some _ from h)⟩
theorem fqrespEnd (die : Nat) (tag : BitVec 32) : Statement (.fqrespEnd die tag) :=
  ⟨Nat.two_pow_pos 32,
    fun _ h => nomatch (show none = some _ from h)⟩
theorem serviceSwapOut (lid : BitVec 32) (g : Nat) : Statement (.serviceSwapOut lid g) :=
  ⟨Nat.two_pow_pos 32,
    fun _ h => nomatch (show none = some _ from h)⟩
theorem swapreq (v : BitVec 32) : Statement (.swapreq v) :=
  ⟨Nat.two_pow_pos 32,
    fun _ h => nomatch (show none = some _ from h)⟩
theorem swapOut (lid : BitVec 32) (g : Nat) : Statement (.swapOut lid g) :=
  ⟨Nat.two_pow_pos 32,
    fun _ h => nomatch (show none = some _ from h)⟩
theorem droopReport (cluster : Nat) (suspect : List (BitVec 32 × Nat × Nat)) : Statement (.droopReport cluster suspect) :=
  ⟨Nat.two_pow_pos 32,
    fun _ h => nomatch (show none = some _ from h)⟩
theorem selfTest (core groups : Nat) : Statement (.selfTest core groups) :=
  ⟨Nat.two_pow_pos 32,
    fun _ h => nomatch (show none = some _ from h)⟩
theorem fictlWrite (v : BitVec 32) : Statement (.fictlWrite v) :=
  ⟨Nat.two_pow_pos 32,
    fun _ h => nomatch (show none = some _ from h)⟩
theorem telemetryFrame (frame : List (BitVec 8)) : Statement (.telemetryFrame frame) :=
  ⟨Nat.two_pow_pos 32,
    fun _ h => nomatch (show none = some _ from h)⟩
theorem stepFrame (frame : List (BitVec 8)) : Statement (.stepFrame frame) :=
  ⟨Nat.two_pow_pos 32,
    fun _ h => nomatch (show none = some _ from h)⟩
theorem gridConfigWrite (offset : Nat) (v : BitVec 32) : Statement (.gridConfigWrite offset v) :=
  ⟨Nat.two_pow_pos 32,
    fun _ h => nomatch (show none = some _ from h)⟩
theorem throttleInterval (power : Nat) : Statement (.throttleInterval power) :=
  ⟨Nat.two_pow_pos 32,
    fun _ h => nomatch (show none = some _ from h)⟩
theorem laneGroupRetention (core used : Nat) : Statement (.laneGroupRetention core used) :=
  ⟨Nat.two_pow_pos 32,
    fun _ h => nomatch (show none = some _ from h)⟩
theorem clusterRetentionEntry (cluster : Nat) : Statement (.clusterRetentionEntry cluster) :=
  ⟨Nat.two_pow_pos 32,
    fun _ h => nomatch (show none = some _ from h)⟩
theorem clusterWake (cluster mismatches : Nat) : Statement (.clusterWake cluster mismatches) :=
  ⟨Nat.two_pow_pos 32,
    fun _ h => nomatch (show none = some _ from h)⟩
theorem cretmissRead (cluster : Nat) : Statement (.cretmissRead cluster) :=
  ⟨Nat.two_pow_pos 32,
    fun _ h => nomatch (show none = some _ from h)⟩
theorem peerRequest (src core seq kind addr : Nat) (epoch late more : Bool) (op : AtomOp) (ty : AtomType) (data : List (BitVec 8)) : Statement (.peerRequest src core seq kind addr epoch late more op ty data) :=
  ⟨Nat.two_pow_pos 32,
    fun _ h => nomatch (show none = some _ from h)⟩
theorem peerResponse (core dest seq : Nat) (epoch : Bool) (data : List (BitVec 8)) : Statement (.peerResponse core dest seq epoch data) :=
  ⟨Nat.two_pow_pos 32,
    fun _ h => nomatch (show none = some _ from h)⟩
theorem peerFaultResponse (core dest seq : Nat) (epoch : Bool) (cause reason : Nat) : Statement (.peerFaultResponse core dest seq epoch cause reason) :=
  ⟨Nat.two_pow_pos 32,
    fun _ h => nomatch (show none = some _ from h)⟩
theorem peerTimeout (core dest seq : Nat) : Statement (.peerTimeout core dest seq) :=
  ⟨Nat.two_pow_pos 32,
    fun _ h => nomatch (show none = some _ from h)⟩
theorem pflogCtlWrite (v : BitVec 32) : Statement (.pflogCtlWrite v) :=
  ⟨Nat.two_pow_pos 32,
    fun _ h => nomatch (show none = some _ from h)⟩
theorem interestMsg (src tensor tile iter life : Nat) : Statement (.interestMsg src tensor tile iter life) :=
  ⟨Nat.two_pow_pos 32,
    fun _ h => nomatch (show none = some _ from h)⟩
theorem tileMsg (tensor tile iter control slot : Nat) (image : List (BitVec 8)) (up : Bool) : Statement (.tileMsg tensor tile iter control slot image up) :=
  ⟨Nat.two_pow_pos 32,
    fun _ h => nomatch (show none = some _ from h)⟩
theorem endMsg (tensor tile iter : Nat) (retired : Bool) (reason : Nat) : Statement (.endMsg tensor tile iter retired reason) :=
  ⟨Nat.two_pow_pos 32,
    fun _ h => nomatch (show none = some _ from h)⟩
theorem retireMsg (tensor tile iter : Nat) : Statement (.retireMsg tensor tile iter) :=
  ⟨Nat.two_pow_pos 32,
    fun _ h => nomatch (show none = some _ from h)⟩
theorem restoreComplete (buddy peer : List (List (BitVec 8))) : Statement (.restoreComplete buddy peer) :=
  ⟨Nat.two_pow_pos 32,
    fun _ h => nomatch (show none = some _ from h)⟩
theorem measExtend (v : BitVec 32) : Statement (.measExtend v) :=
  ⟨Nat.two_pow_pos 32,
    fun _ h => nomatch (show none = some _ from h)⟩
theorem maarQuoteRequest (nonce : List (BitVec 8)) (sel : BitVec 8) : Statement (.maarQuoteRequest nonce sel) :=
  ⟨Nat.two_pow_pos 32,
    fun _ h => nomatch (show none = some _ from h)⟩
theorem iftGo (v : BitVec 32) : Statement (.iftGo v) :=
  ⟨Nat.two_pow_pos 32,
    fun _ h => nomatch (show none = some _ from h)⟩
theorem iftComplete (failed : List (Nat × Nat × Nat)) (aborted : Bool) : Statement (.iftComplete failed aborted) :=
  ⟨Nat.two_pow_pos 32,
    fun _ h => nomatch (show none = some _ from h)⟩
theorem bootStage (stage : Nat) (key signature image : List (BitVec 8)) (trained tested : Bool) : Statement (.bootStage stage key signature image trained tested) :=
  ⟨Nat.two_pow_pos 32,
    fun _ h => nomatch (show none = some _ from h)⟩
theorem hostWindowAccess (window offset size : Nat) (store : Bool) (data : BitVec 128) : Statement (.hostWindowAccess window offset size store data) :=
  ⟨Nat.two_pow_pos 32,
    fun _ h => nomatch (show none = some _ from h)⟩
theorem registerWrite (offset : Nat) (v : BitVec 32) : Statement (.registerWrite offset v) :=
  ⟨Nat.two_pow_pos 32,
    fun _ h => nomatch (show none = some _ from h)⟩
theorem unassignedOpcodeIssue (w : BitVec 32) : Statement (.unassignedOpcodeIssue w) :=
  ⟨w.isLt,
    fun _ h => nomatch (show none = some _ from h)⟩
theorem clauseEntry : Statement (.clauseEntry) :=
  ⟨Nat.two_pow_pos 32,
    fun _ h => nomatch (show none = some _ from h)⟩
theorem launchStart : Statement (.launchStart) :=
  ⟨Nat.two_pow_pos 32,
    fun _ h => nomatch (show none = some _ from h)⟩
theorem gangPlacement : Statement (.gangPlacement) :=
  ⟨Nat.two_pow_pos 32,
    fun _ h => nomatch (show none = some _ from h)⟩
theorem completionWordWrite : Statement (.completionWordWrite) :=
  ⟨Nat.two_pow_pos 32,
    fun _ h => nomatch (show none = some _ from h)⟩
theorem detcntRead : Statement (.detcntRead) :=
  ⟨Nat.two_pow_pos 32,
    fun _ h => nomatch (show none = some _ from h)⟩
theorem violcntRead : Statement (.violcntRead) :=
  ⟨Nat.two_pow_pos 32,
    fun _ h => nomatch (show none = some _ from h)⟩
theorem serviceLevelChange : Statement (.serviceLevelChange) :=
  ⟨Nat.two_pow_pos 32,
    fun _ h => nomatch (show none = some _ from h)⟩
theorem tlbiComplete : Statement (.tlbiComplete) :=
  ⟨Nat.two_pow_pos 32,
    fun _ h => nomatch (show none = some _ from h)⟩
theorem horizonPublish : Statement (.horizonPublish) :=
  ⟨Nat.two_pow_pos 32,
    fun _ h => nomatch (show none = some _ from h)⟩
theorem admissionInterval : Statement (.admissionInterval) :=
  ⟨Nat.two_pow_pos 32,
    fun _ h => nomatch (show none = some _ from h)⟩
theorem stepAcknowledgement : Statement (.stepAcknowledgement) :=
  ⟨Nat.two_pow_pos 32,
    fun _ h => nomatch (show none = some _ from h)⟩
theorem linkLost : Statement (.linkLost) :=
  ⟨Nat.two_pow_pos 32,
    fun _ h => nomatch (show none = some _ from h)⟩
theorem shedDeadline : Statement (.shedDeadline) :=
  ⟨Nat.two_pow_pos 32,
    fun _ h => nomatch (show none = some _ from h)⟩
theorem backstop : Statement (.backstop) :=
  ⟨Nat.two_pow_pos 32,
    fun _ h => nomatch (show none = some _ from h)⟩
theorem frameerrRead : Statement (.frameerrRead) :=
  ⟨Nat.two_pow_pos 32,
    fun _ h => nomatch (show none = some _ from h)⟩
theorem drain : Statement (.drain) :=
  ⟨Nat.two_pow_pos 32,
    fun _ h => nomatch (show none = some _ from h)⟩
theorem powerReturn : Statement (.powerReturn) :=
  ⟨Nat.two_pow_pos 32,
    fun _ h => nomatch (show none = some _ from h)⟩
theorem holdExpiry : Statement (.holdExpiry) :=
  ⟨Nat.two_pow_pos 32,
    fun _ h => nomatch (show none = some _ from h)⟩
theorem tsctlFlush : Statement (.tsctlFlush) :=
  ⟨Nat.two_pow_pos 32,
    fun _ h => nomatch (show none = some _ from h)⟩
theorem namerefRead : Statement (.namerefRead) :=
  ⟨Nat.two_pow_pos 32,
    fun _ h => nomatch (show none = some _ from h)⟩
theorem faceExpiry : Statement (.faceExpiry) :=
  ⟨Nat.two_pow_pos 32,
    fun _ h => nomatch (show none = some _ from h)⟩
theorem restoreGo : Statement (.restoreGo) :=
  ⟨Nat.two_pow_pos 32,
    fun _ h => nomatch (show none = some _ from h)⟩
theorem quoteRequest : Statement (.quoteRequest) :=
  ⟨Nat.two_pow_pos 32,
    fun _ h => nomatch (show none = some _ from h)⟩
theorem powerGood : Statement (.powerGood) :=
  ⟨Nat.two_pow_pos 32,
    fun _ h => nomatch (show none = some _ from h)⟩
theorem discardedFrame : Statement (.discardedFrame) :=
  ⟨Nat.two_pow_pos 32,
    fun _ h => nomatch (show none = some _ from h)⟩
theorem quoteComplete : Statement (.quoteComplete) :=
  ⟨Nat.two_pow_pos 32,
    fun _ h => nomatch (show none = some _ from h)⟩

end Sys2Proof.Laws.F
end

