-- ==== Sys2Proof/Laws/Produce.lean ====
section
/-! SUPPORT. What the shared shapes of an instruction leave: a long-latency producer, acting fibres that go to places of their
own, and the entry of a handler. -/

namespace Sys2Proof.Safety

open Sys2Proof.Machine

variable {s : State} {iss : Issue} {w : Warp} {g : Option Guard} {u : Uses}

/-- The fibres that act, in the order of the set. -/
theorem context_fibres_eq :
    (context iss w g).fibres = (acting iss w g).filterMap (fun l => (w.fibre? l).map (fun f => (l, f))) := by
  have : ∀ ls : List Lane, (∀ l ∈ ls, (w.fibre? l).isSome = true) →
      ls.map (fun l => (l, (context iss w g).fibre l)) = ls.filterMap (fun l => (w.fibre? l).map (fun f => (l, f))) := by
    intro ls
    induction ls with
    | nil => intro _; rfl
    | cons a ls ih =>
      intro hs
      obtain ⟨f, hf⟩ := Option.isSome_iff_exists.1 (hs a List.mem_cons_self)
      simp [hf, context_fibre hf, ih (fun l hl => hs l (List.mem_cons_of_mem _ hl))]
  exact this _ (fun l hl => by obtain ⟨-, f, hf, -⟩ := mem_acting.1 hl; simp [hf])

/-- What a long-latency producer leaves outstanding (R18). -/
def produced (iss : Issue) (w : Warp) (g : Option Guard) (dst : Fibre → List Nat) (fn : Lane → Fibre → Fibre × List Word) : List Pend :=
  ((acting iss w g).filterMap (fun l => (w.fibre? l).map (fun f => (l, f)))).map (fun e =>
    { num := w.issues, lane := e.1, kind := .regs ((dst e.2).zip (fn e.1 e.2).2), pc := iss.pc, hdr := iss.hdr })

/-- A long-latency producer completes: the destination entries of its acting fibres are empty, and its results outstanding. -/
theorem Ready.produce_completes (h : Ready s iss w g u) (dst : Fibre → List Nat) (fn : Lane → Fibre → Fibre × List Word) :
    Completes s ((context iss w g).settle ((context iss w g).produce s dst fn)) iss w
      (passing iss g (fun l f => (fn l f).1.emptyEntries (dst f)))
      (fun x => { x with pend := x.pend ++ produced iss w g dst fn }) := by
  have e : ∀ k, s.modWarp iss.key k = s.setWarp iss.key (k w) := fun k => s.modWarp_of _ h.warp
  have hk : (context iss w g).key = iss.key := rfl
  have ha : (context iss w g).active = acting iss w g := rfl
  simp only [Ctx.produce, Act.next, hk, e, ha, context_fibres_eq]
  refine Completes.of_done (rest := fun x => { x with pend := x.pend ++ produced iss w g dst fn }) ?_ ?_ ?_ ?_ ?_ ?_
  · rw [State.setWarp_warp?_self]; rfl
  · exact h.unarmed
  · rfl
  · exact fun _ => rfl
  · exact fun k hk => State.setWarp_warp?_of_ne _ _ hk
  · rw [← h.free]; rfl

/-- The same in the form that instructions call. -/
theorem Ready.latent_completes {g : Guard} (h : Ready s iss w (some g) u) (dst : Fibre → List Nat)
    (fn : Lane → Fibre → Fibre × List Word) :
    ∃ t, latent s g u dst fn = .next t ∧ Completes s t iss w
      (passing iss (some g) (fun l f => (fn l f).1.emptyEntries (dst f)))
      (fun x => { x with pend := x.pend ++ produced iss w (some g) dst fn }) :=
  ⟨_, rfl, by rw [h.runIssue_eq _ _ _ (by simp)]; exact h.produce_completes dst fn⟩

/-- Acting fibres that go to places of their own complete. -/
theorem Ready.eachMoves_completes (h : Ready s iss w g u) (op : Lane → Fibre → Fibre) :
    Completes s ((context iss w g).settle ((context iss w g).eachMoves s op)) iss w (moving iss g op) := by
  have e : s.modWarp iss.key (fun w1 => w1.mapLanes (acting iss w g) op) =
      s.setWarp iss.key (w.mapLanes (acting iss w g) op) := s.modWarp_of _ h.warp
  refine Completes.of_moved (rest := id) (held := false) (done := true)
    (s1 := s.modWarp iss.key (fun w1 => w1.mapLanes (acting iss w g) op)) ?_ ?_ ?_ ?_ ?_ ?_
  · rw [e, State.setWarp_warp?_self]; rfl
  · rw [e]; exact h.unarmed
  · rw [e]; rfl
  · rw [e]; exact fun _ => rfl
  · rw [e]; exact fun k hk => State.setWarp_warp?_of_ne _ _ hk
  · rw [← h.free]; rfl

/-- A handler cause in a fibre outside its handler, in a launch with one, enters it and changes that fibre only (R312). -/
theorem takeTrapAt_handled {k : WarpKey} {l : Lane} {f : Fibre} {la : Launch} (t : Trap) (pc hdr : Word)
    (hl : s.launch? k.lid = some la) (hf : s.fibre? k l = some f) (hh : la.hdlr = true) (hn : f.handler = false) :
    s.takeTrapAt k l t pc hdr = s.modFibre k l (fun f => f.enterHandler t pc hdr la.record.handler) := by
  simp [State.takeTrapAt, hl, hf, hh, hn]

/-- Without a handler, or inside it, the cause ends the group (R314, R320). -/
theorem takeTrapAt_fatal {k : WarpKey} {l : Lane} {f : Fibre} {la : Launch} (t : Trap) (pc hdr : Word)
    (hl : s.launch? k.lid = some la) (hf : s.fibre? k l = some f) (hh : la.hdlr = false ∨ f.handler = true) :
    s.takeTrapAt k l t pc hdr = s.endGroup (s.groupKey k) (t.fatal k.w l pc hdr) := by
  rcases hh with hh | hh <;> simp [State.takeTrapAt, hl, hf, hh]

/-- What the entry of a handler makes of a fibre (R97, R313): its place, the trap registers, and nothing else. -/
theorem enterHandler_frame (f : Fibre) (t : Trap) (pc hdr h : Word) :
    (f.enterHandler t pc hdr h).entries = f.entries ∧ (f.enterHandler t pc hdr h).preds = f.preds ∧
    (f.enterHandler t pc hdr h).lr = f.lr ∧ (f.enterHandler t pc hdr h).wb = f.wb ∧
    (f.enterHandler t pc hdr h).depth = f.depth ∧ (f.enterHandler t pc hdr h).gen = f.gen ∧
    (f.enterHandler t pc hdr h).handler = true ∧ (f.enterHandler t pc hdr h).pc = h ∧
    (f.enterHandler t pc hdr h).tr.pc = pc ∧ (f.enterHandler t pc hdr h).tr.hdr = hdr := by
  refine ⟨rfl, rfl, rfl, rfl, rfl, rfl, rfl, rfl, rfl, rfl⟩

end Sys2Proof.Safety
end

