-- ==== Sys2Proof/Tests/Slice0.lean ====
section
/-! SUPPORT. Tests: terms that well-formedness refuses, words written out from the spec's encodings, the result of one step where
the spec gives it, and for each statement a state and operands that meet its hypotheses. -/

namespace Sys2Proof.Tests
set_option Elab.async false

open Sys2Proof.Machine Sys2Proof.Safety Sys2Proof.Claims

/-! ## Words of the spec's encodings (R57 to R66) -/

/-- The decoder reads an instruction from a word and the word after it. -/
def decodesTo (w v : Word) (i : Instr) : Bool :=
  match decodeWords w v with
  | .ok j => j == i
  | .error _ => false

theorem of_decodesTo {w v : Word} {i : Instr} (h : decodesTo w v i = true) : decodeWords w v = .ok i := by
  unfold decodesTo at h
  split at h
  · rename_i j e
    rw [e, eq_of_beq h]
  · cases h

def integerWords1 : List (Word × Word × Instr) :=
  [(0x00D322E2, 0x00000000, .iadd ⟨⟨true, 5⟩, 12, 34, 56, true, false⟩),
   (0x01D3229C, 0x00000000, .iaddi ⟨⟨true, 5⟩, 12, 34, 0x9C⟩),
   (0x02D322E2, 0x00000000, .isub ⟨⟨true, 5⟩, 12, 34, 56, true, false⟩),
   (0x03D322E2, 0x00000000, .iadd64 ⟨⟨true, 5⟩, 12, 34, 56, true, false⟩),
   (0x04D322E2, 0x00000000, .isub64 ⟨⟨true, 5⟩, 12, 34, 56, true, false⟩),
   (0x05D322E2, 0x00000000, .imul ⟨⟨true, 5⟩, 12, 34, 56, true, false⟩),
   (0x06D322E2, 0x00000000, .imulhiS32 ⟨⟨true, 5⟩, 12, 34, 56, true, false⟩),
   (0x07D322E2, 0x00000000, .imulhiN32 ⟨⟨true, 5⟩, 12, 34, 56, true, false⟩),
   (0x08D322E2, 0x00000000, .imulwS32 ⟨⟨true, 5⟩, 12, 34, 56, true, false⟩),
   (0x09D322E2, 0x00000000, .imulwN32 ⟨⟨true, 5⟩, 12, 34, 56, true, false⟩),
   (0x0AD322E2, 0x00000000, .idivS32 ⟨⟨true, 5⟩, 12, 34, 56, true, false⟩),
   (0x0BD322E2, 0x00000000, .idivN32 ⟨⟨true, 5⟩, 12, 34, 56, true, false⟩),
   (0x0CD322E2, 0x00000000, .iremS32 ⟨⟨true, 5⟩, 12, 34, 56, true, false⟩),
   (0x0DD322E2, 0x00000000, .iremN32 ⟨⟨true, 5⟩, 12, 34, 56, true, false⟩),
   (0x0ED322E2, 0x00000000, .iminS32 ⟨⟨true, 5⟩, 12, 34, 56, true, false⟩),
   (0x0FD322E2, 0x00000000, .iminN32 ⟨⟨true, 5⟩, 12, 34, 56, true, false⟩),
   (0x10D322E2, 0x00000000, .imaxS32 ⟨⟨true, 5⟩, 12, 34, 56, true, false⟩),
   (0x11D322E2, 0x00000000, .imaxN32 ⟨⟨true, 5⟩, 12, 34, 56, true, false⟩),
   (0x12D32202, 0x00000000, .iabs ⟨⟨true, 5⟩, 12, 34, true⟩),
   (0x13D322E2, 0x00000000, .iaddsatS32 ⟨⟨true, 5⟩, 12, 34, 56, true, false⟩)]
theorem test_decode_integer_1 : integerWords1.all (fun e => decodesTo e.1 e.2.1 e.2.2) = true := by decide
def integerWords2 : List (Word × Word × Instr) :=
  [(0x14D322E2, 0x00000000, .isubsatS32 ⟨⟨true, 5⟩, 12, 34, 56, true, false⟩),
   (0x15D322E2, 0x00000000, .idot4S8 ⟨⟨true, 5⟩, 12, 34, 56, true, false⟩),
   (0x18D322E2, 0x00000000, .and ⟨⟨true, 5⟩, 12, 34, 56, true, false⟩),
   (0x19D322E2, 0x00000000, .or ⟨⟨true, 5⟩, 12, 34, 56, true, false⟩),
   (0x1AD322E2, 0x00000000, .xor ⟨⟨true, 5⟩, 12, 34, 56, true, false⟩),
   (0x1BD322E2, 0x00000000, .andn ⟨⟨true, 5⟩, 12, 34, 56, true, false⟩),
   (0x1CD3229C, 0x00000000, .andi ⟨⟨true, 5⟩, 12, 34, 0x9C⟩),
   (0x1DD3229C, 0x00000000, .ori ⟨⟨true, 5⟩, 12, 34, 0x9C⟩),
   (0x1ED3229C, 0x00000000, .xori ⟨⟨true, 5⟩, 12, 34, 0x9C⟩),
   (0x20D322E2, 0x00000000, .shl ⟨⟨true, 5⟩, 12, 34, 56, true, false⟩),
   (0x21D322E2, 0x00000000, .shr ⟨⟨true, 5⟩, 12, 34, 56, true, false⟩),
   (0x22D322E2, 0x00000000, .sar ⟨⟨true, 5⟩, 12, 34, 56, true, false⟩),
   (0x23D322E2, 0x00000000, .rotl ⟨⟨true, 5⟩, 12, 34, 56, true, false⟩),
   (0x24D3229C, 0x00000000, .shli ⟨⟨true, 5⟩, 12, 34, 0x9C⟩),
   (0x25D3229C, 0x00000000, .shri ⟨⟨true, 5⟩, 12, 34, 0x9C⟩),
   (0x26D3229C, 0x00000000, .sari ⟨⟨true, 5⟩, 12, 34, 0x9C⟩),
   (0x28D32202, 0x00000000, .popc ⟨⟨true, 5⟩, 12, 34, true⟩),
   (0x29D32202, 0x00000000, .clz ⟨⟨true, 5⟩, 12, 34, true⟩),
   (0x2AD32202, 0x00000000, .brev ⟨⟨true, 5⟩, 12, 34, true⟩),
   (0x2BD322E2, 0x00000000, .bfxN32 ⟨⟨true, 5⟩, 12, 34, 56, true, false⟩)]
theorem test_decode_integer_2 : integerWords2.all (fun e => decodesTo e.1 e.2.1 e.2.2) = true := by decide
def integerWords3 : List (Word × Word × Instr) :=
  [(0x2CD322E2, 0x00000000, .bfxS32 ⟨⟨true, 5⟩, 12, 34, 56, true, false⟩),
   (0x2DD322E2, 0x00000000, .bfi ⟨⟨true, 5⟩, 12, 34, 56, true, false⟩),
   (0x30D6A2E2, 0x00000000, .icmp ⟨⟨true, 5⟩, 3, .lt, 34, 56, true, false⟩),
   (0x31D65096, 0x00000000, .pcomb ⟨true, 5⟩ 3 1 2 0x96),
   (0x32D322E2, 0x00000000, .pick ⟨⟨true, 5⟩, 12, 34, 56, true, false⟩),
   (0x33D30000, 0x00000000, .pread ⟨true, 5⟩ 12),
   (0x34D022E2, 0x00000000, .pwrite ⟨true, 5⟩ 34 56 true false),
   (0x38D32202, 0x00000000, .mov ⟨⟨true, 5⟩, 12, 34, true⟩),
   (0x39D30025, 0x00000000, .movs ⟨true, 5⟩ 12 9 true),
   (0x3A322299, 0x00000000, .salu .addp64 12 34 10),
   (0x3B104418, 0x00000000, .salui .add64 4 4 16),
   (0x3DD3000B, 0x00000000, .srget ⟨true, 5⟩ 12 .srgen),
   (0x3ED02223, 0x00000000, .srset ⟨true, 5⟩ 34 .trpc),
   (0xE0D30000, 0xDEADBEEF, .movi ⟨true, 5⟩ 12 0xDEADBEEF),
   (0xE1D30000, 0xDEADBEEF, .smovi ⟨true, 5⟩ 12 0xDEADBEEF),
   (0xE5D322E2, 0x5A400000, .imad ⟨⟨true, 5⟩, 12, 34, 56, true, false⟩ 22 true .wideS)]
theorem test_decode_integer_3 : integerWords3.all (fun e => decodesTo e.1 e.2.1 e.2.2) = true := by decide
def floatWords1 : List (Word × Word × Instr) :=
  [(0x40D322E2, 0x00000000, .fadd ⟨⟨true, 5⟩, 12, 34, 56, true, false⟩),
   (0x41D322E2, 0x00000000, .fsub ⟨⟨true, 5⟩, 12, 34, 56, true, false⟩),
   (0x42D322E2, 0x00000000, .fmul ⟨⟨true, 5⟩, 12, 34, 56, true, false⟩),
   (0x43D322E2, 0x00000000, .ffma ⟨⟨true, 5⟩, 12, 34, 56, true, false⟩),
   (0x44D322E2, 0x00000000, .ffms ⟨⟨true, 5⟩, 12, 34, 56, true, false⟩),
   (0x45D322E2, 0x00000000, .ffnma ⟨⟨true, 5⟩, 12, 34, 56, true, false⟩),
   (0x46D322E2, 0x00000000, .fmin ⟨⟨true, 5⟩, 12, 34, 56, true, false⟩),
   (0x47D322E2, 0x00000000, .fmax ⟨⟨true, 5⟩, 12, 34, 56, true, false⟩),
   (0x48D6A2E2, 0x00000000, .fcmp ⟨⟨true, 5⟩, 3, .lt, 34, 56, true, false⟩),
   (0x49D32202, 0x00000000, .fabs ⟨⟨true, 5⟩, 12, 34, true⟩),
   (0x4AD32202, 0x00000000, .fneg ⟨⟨true, 5⟩, 12, 34, true⟩),
   (0x4BD32202, 0x00000000, .fclass ⟨⟨true, 5⟩, 12, 34, true⟩),
   (0x4CD322E2, 0x00000000, .fscale ⟨⟨true, 5⟩, 12, 34, 56, true, false⟩),
   (0x4DD3220E, 0x00000000, .fround ⟨true, 5⟩ 12 34 true .rdn),
   (0x50D322E2, 0x00000000, .faddH2 ⟨⟨true, 5⟩, 12, 34, 56, true, false⟩),
   (0x51D322E2, 0x00000000, .fmulH2 ⟨⟨true, 5⟩, 12, 34, 56, true, false⟩),
   (0x52D322E2, 0x00000000, .ffmaH2 ⟨⟨true, 5⟩, 12, 34, 56, true, false⟩),
   (0x53D322E2, 0x00000000, .fminH2 ⟨⟨true, 5⟩, 12, 34, 56, true, false⟩),
   (0x54D322E2, 0x00000000, .fmaxH2 ⟨⟨true, 5⟩, 12, 34, 56, true, false⟩),
   (0x55D6A2E2, 0x00000000, .fcmpH2 ⟨⟨true, 5⟩, 3, .lt, 34, 56, true, false⟩)]
theorem test_decode_float_1 : floatWords1.all (fun e => decodesTo e.1 e.2.1 e.2.2) = true := by decide
def floatWords2 : List (Word × Word × Instr) :=
  [(0x58D322E2, 0x00000000, .faddB2 ⟨⟨true, 5⟩, 12, 34, 56, true, false⟩),
   (0x59D322E2, 0x00000000, .fmulB2 ⟨⟨true, 5⟩, 12, 34, 56, true, false⟩),
   (0x5AD322E2, 0x00000000, .ffmaB2 ⟨⟨true, 5⟩, 12, 34, 56, true, false⟩),
   (0x5BD322E2, 0x00000000, .fminB2 ⟨⟨true, 5⟩, 12, 34, 56, true, false⟩),
   (0x5CD322E2, 0x00000000, .fmaxB2 ⟨⟨true, 5⟩, 12, 34, 56, true, false⟩),
   (0x5DD6A2E2, 0x00000000, .fcmpB2 ⟨⟨true, 5⟩, 3, .lt, 34, 56, true, false⟩),
   (0x60D32202, 0x00000000, .frcp ⟨⟨true, 5⟩, 12, 34, true⟩),
   (0x61D32202, 0x00000000, .frsq ⟨⟨true, 5⟩, 12, 34, true⟩),
   (0x62D32202, 0x00000000, .fsqrt ⟨⟨true, 5⟩, 12, 34, true⟩),
   (0x63D32202, 0x00000000, .fex2 ⟨⟨true, 5⟩, 12, 34, true⟩),
   (0x64D32202, 0x00000000, .flg2 ⟨⟨true, 5⟩, 12, 34, true⟩),
   (0x65D32202, 0x00000000, .fsin ⟨⟨true, 5⟩, 12, 34, true⟩),
   (0x66D32202, 0x00000000, .fcos ⟨⟨true, 5⟩, 12, 34, true⟩),
   (0x67D32202, 0x00000000, .ftanh ⟨⟨true, 5⟩, 12, 34, true⟩),
   (0x68D32242, 0x00000000, .cvt ⟨true, 5⟩ 12 34 true .bf16 .f32),
   (0x69D3220A, 0x00000000, .cvtpk ⟨true, 5⟩ 12 34 true .e4),
   (0x6BD322E2, 0x00000000, .fdot2B2 ⟨⟨true, 5⟩, 12, 34, 56, true, false⟩),
   (0xE2D32202, 0x30300000, .cvtx ⟨true, 5⟩ 12 34 true .e4 .f32 .rtz true false 0),
   (0xE6D322E2, 0x5AA80000, .ffma4 ⟨⟨true, 5⟩, 12, 34, 56, true, false⟩ 22 true .rup .b2 true false)]
theorem test_decode_float_2 : floatWords2.all (fun e => decodesTo e.1 e.2.1 e.2.2) = true := by decide
def controlWords : List (Word × Word × Instr) :=
  [(0x70D00000, 0x00000000, .nop ⟨true, 5⟩),
   (0x71DFFFFD, 0x00000000, .bra ⟨true, 5⟩ 0xFFFFD),
   (0x72D02202, 0x00000000, .brx ⟨true, 5⟩ 34 true),
   (0x73D26000, 0xFFFFFFF0, .bru ⟨true, 5⟩ 9 true false 0xFFFFFFF0),
   (0x74D5FFF0, 0x00000000, .call ⟨true, 5⟩ 2 0x1FFF0),
   (0x75D42202, 0x00000000, .callx ⟨true, 5⟩ 2 34 true),
   (0x76D00000, 0x00000000, .ret ⟨true, 5⟩),
   (0x77D30500, 0x00000020, .spawn ⟨true, 5⟩ 12 5 0x20),
   (0x78D00000, 0x00000000, .quit ⟨true, 5⟩),
   (0x79D00000, 0x00000000, .yieldTurn ⟨true, 5⟩),
   (0x7AD0007F, 0x00000000, .trap ⟨true, 5⟩ 0x7F),
   (0x7BD0007F, 0x00000000, .bkpt ⟨true, 5⟩ 0x7F),
   (0x7CD00000, 0x00000000, .tret ⟨true, 5⟩)]
theorem test_decode_control : controlWords.all (fun e => decodesTo e.1 e.2.1 e.2.2) = true := by decide
def memoryWords1 : List (Word × Word × Instr) :=
  [(0x80D3222A, 0x00000000, .ldB8 ⟨⟨true, 5⟩, 12, 34, 10, true, false⟩),
   (0x81D3222A, 0x00000000, .ldS8 ⟨⟨true, 5⟩, 12, 34, 10, true, false⟩),
   (0x82D3222A, 0x00000000, .ldB16 ⟨⟨true, 5⟩, 12, 34, 10, true, false⟩),
   (0x83D3222A, 0x00000000, .ldS16 ⟨⟨true, 5⟩, 12, 34, 10, true, false⟩),
   (0x84D3222A, 0x00000000, .ldB32 ⟨⟨true, 5⟩, 12, 34, 10, true, false⟩),
   (0x85D3222A, 0x00000000, .ldB64 ⟨⟨true, 5⟩, 12, 34, 10, true, false⟩),
   (0x86D3222A, 0x00000000, .ldB128 ⟨⟨true, 5⟩, 12, 34, 10, true, false⟩),
   (0x88D3222A, 0x00000000, .stB8 ⟨⟨true, 5⟩, 12, 34, 10, true, false⟩),
   (0x89D3222A, 0x00000000, .stB16 ⟨⟨true, 5⟩, 12, 34, 10, true, false⟩),
   (0x8AD3222A, 0x00000000, .stB32 ⟨⟨true, 5⟩, 12, 34, 10, true, false⟩),
   (0x8BD3222A, 0x00000000, .stB64 ⟨⟨true, 5⟩, 12, 34, 10, true, false⟩),
   (0x8CD3222A, 0x00000000, .stB128 ⟨⟨true, 5⟩, 12, 34, 10, true, false⟩),
   (0x8DD3222A, 0x00000000, .lds ⟨⟨true, 5⟩, 12, 34, 10, true, false⟩),
   (0x8ED3222A, 0x00000000, .sts ⟨⟨true, 5⟩, 12, 34, 10, true, false⟩),
   (0x8FD3222A, 0x00000000, .ldc ⟨⟨true, 5⟩, 12, 34, 10, true, false⟩),
   (0x90D3222A, 0x00000000, .stc ⟨⟨true, 5⟩, 12, 34, 10, true, false⟩),
   (0xE3D3222A, 0xFFFF80D4, .ldx ⟨⟨true, 5⟩, 12, 34, 10, true, false⟩ 0xFFFF80 .b128 .keep .die),
   (0xE4D3222A, 0xFFFF80AE, .stx ⟨⟨true, 5⟩, 12, 34, 10, true, false⟩ 0xFFFF80 .b64 .stream .domain),
   (0xE7D3222A, 0x00008040, .lea ⟨⟨true, 5⟩, 12, 34, 10, true, false⟩ 0x80 .b16),
   (0x91D3222A, 0xE0716000, .atom ⟨true, 5⟩ 12 ⟨34, 10, true, false, .cluster, false⟩ 56 false .inc .n32)]
theorem test_decode_memory_1 : memoryWords1.all (fun e => decodesTo e.1 e.2.1 e.2.2) = true := by decide
def memoryWords2 : List (Word × Word × Instr) :=
  [(0x92D3222A, 0xE0B5A600, .atomcas ⟨true, 5⟩ 12 ⟨34, 10, true, false, .package, false⟩ 56 false 22 true .b64 3),
   (0x93D0222A, 0xE206A000, .red ⟨true, 5⟩ ⟨34, 10, true, false, .package, false⟩ 56 true .add .f32),
   (0x94D00005, 0x00000000, .fence ⟨true, 5⟩ .package),
   (0x95D0A22A, 0x00000000, .cctl ⟨true, 5⟩ .l2clean 34 10 true false),
   (0x96D1222A, 0x00000000, .icinv ⟨true, 5⟩ .die 34 10 true false),
   (0x97D4222A, 0x00000000, .prefetch ⟨true, 5⟩ true 34 10 true false)]
theorem test_decode_memory_2 : memoryWords2.all (fun e => decodesTo e.1 e.2.1 e.2.2) = true := by decide
def crossLaneWords : List (Word × Word × Instr) :=
  [(0xB0D322E2, 0x00000000, .shflIdx ⟨⟨true, 5⟩, 12, 34, 56, true, false⟩),
   (0xB1D322E2, 0x00000000, .shflUp ⟨⟨true, 5⟩, 12, 34, 56, true, false⟩),
   (0xB2D322E2, 0x00000000, .shflDown ⟨⟨true, 5⟩, 12, 34, 56, true, false⟩),
   (0xB3D322E2, 0x00000000, .shflXor ⟨⟨true, 5⟩, 12, 34, 56, true, false⟩),
   (0xB4D6A800, 0x00000000, .vote ⟨true, 5⟩ 3 .same 5),
   (0xB5D32800, 0x00000000, .ballot ⟨true, 5⟩ 12 5),
   (0xB6D32202, 0x00000000, .matchLanes ⟨⟨true, 5⟩, 12, 34, true⟩),
   (0xB7D60C00, 0x00000000, .elect ⟨true, 5⟩ 3 12),
   (0xB8D32202, 0x21000000, .redux ⟨⟨true, 5⟩, 12, 34, true⟩ .max .n32 .rne),
   (0xB9D32202, 0x02300000, .scan ⟨⟨true, 5⟩, 12, 34, true⟩ .add .f32 .rtz true),
   (0xBAD32226, 0x00000000, .readlane ⟨true, 5⟩ 12 34 9 true false)]
theorem test_decode_cross_lane : crossLaneWords.all (fun e => decodesTo e.1 e.2.1 e.2.2) = true := by decide
def barrierWords : List (Word × Word × Instr) :=
  [(0xC0D00067, 0x00000000, .barArrive ⟨true, 5⟩ ⟨.cluster, 7⟩),
   (0xC1D00027, 0x00000000, .barWait ⟨true, 5⟩ ⟨.core, 7⟩),
   (0xC2D00047, 0x00000000, .barSync ⟨true, 5⟩ ⟨.quad, 7⟩),
   (0xC3D02227, 0x00000000, .barInit ⟨true, 5⟩ 34 ⟨.core, 7⟩),
   (0xC4D00087, 0x00000000, .barDrop ⟨true, 5⟩ ⟨.die, 7⟩),
   (0xC5D600A3, 0x00000000, .barTest ⟨true, 5⟩ 3 ⟨.package, 3⟩)]
theorem test_decode_barrier : barrierWords.all (fun e => decodesTo e.1 e.2.1 e.2.2) = true := by decide
def schedWords : List (Word × Word × Instr) :=
  [(0xC8D32202, 0x00000000, .deqPush ⟨true, 5⟩ 12 34 true),
   (0xC9D300E0, 0x00000000, .deqPop ⟨true, 5⟩ 12 56),
   (0xCAD300E0, 0x00000000, .deqSteal ⟨true, 5⟩ 12 56),
   (0xCBD32229, 0x00000000, .launch ⟨true, 5⟩ 12 34 10 false true),
   (0xCCD00018, 0x00000000, .regGrow ⟨true, 5⟩ 24),
   (0xCDD00009, 0x00000000, .regShrink ⟨true, 5⟩ 9),
   (0xCED30025, 0x00000000, .step ⟨true, 5⟩ 12 9 true),
   (0xF8D00002, 0x00000000, .pwrHint ⟨true, 5⟩ .computeBound),
   (0xF9D30005, 0x00000000, .lanechk ⟨true, 5⟩ 12 5)]
theorem test_decode_sched : schedWords.all (fun e => decodesTo e.1 e.2.1 e.2.2) = true := by decide
def tileWords : List (Word × Word × Instr) :=
  [(0xD0D2C025, 0x00000000, .tcfg ⟨true, 5⟩ 11 9 true),
   (0xD1D30B00, 0x00000000, .tstat ⟨true, 5⟩ 12 11),
   (0xD2D0000B, 0x00000000, .tzero ⟨true, 5⟩ 11),
   (0xD3D0000B, 0x00000000, .tfree ⟨true, 5⟩ 11),
   (0xD4D26D80, 0x74000000, .mma ⟨true, 5⟩ 9 11 6 3 true false true),
   (0xD5D24000, 0x2AD00000, .epi ⟨true, 5⟩ 9 0 .memory .gelu 5 false true true false .keep),
   (0xD6D26C00, 0x25200000, .copy ⟨true, 5⟩ 9 11 .memory .tile .gather 2 .stream),
   (0xD7D300B6, 0x00000000, .tcvt ⟨true, 5⟩ true .rsr 11 6),
   (0xD8D30BE1, 0x00000000, .tmovGet ⟨true, 5⟩ 12 11 56 true),
   (0xD8D32BE2, 0x00000000, .tmovSet ⟨true, 5⟩ 12 11 56 true false)]
theorem test_decode_tile : tileWords.all (fun e => decodesTo e.1 e.2.1 e.2.2) = true := by decide
def nameWords : List (Word × Word × Instr) :=
  [(0xF0D2C021, 0x00000000, .namePub ⟨true, 5⟩ 11 8 true),
   (0xF1D2C021, 0x00000000, .nameGet ⟨true, 5⟩ 11 8 true),
   (0xF2D00021, 0x00000000, .nameRetire ⟨true, 5⟩ 8 true),
   (0xF3D2C000, 0x00000000, .nameDrop ⟨true, 5⟩ 11)]
theorem test_decode_name : nameWords.all (fun e => decodesTo e.1 e.2.1 e.2.2) = true := by decide
/-! ## Terms that are ill-formed, one for each check of `fieldsOk` -/

/-- The guard p7, which holds in every fibre. -/
def always : Guard := ⟨false, 7⟩
/-- Base 64-bit registers and an address operand that pass their checks. -/
def mArg (r sbase : Reg) : FmtM := { g := always, r := r, vo := 0, sbase := sbase, scale := false, fa := false }
/-- A term for each check that `fieldsOk` makes, which breaks that check only. -/
def illFormed : List Instr :=
  let g := always
  let a3 (d a b : Reg) : FmtA := ⟨g, d, a, b, false, false⟩
  [.iadd64 (a3 1 2 4), .iadd64 (a3 2 3 4), .isub64 (a3 2 4 5), .imulwS32 (a3 1 2 4), .imulwN32 (a3 3 2 4),
   .imad (a3 1 2 3) 4 false .wideS, .imad (a3 2 2 3) 5 false .wideN,
   .salu .mov 1 2 3, .salu .popc 1 2 3, .salu .clz 1 2 1, .salu .add64 1 2 3, .salu .addp64 2 4 5, .salui .addp64 2 4 6,
   .salui .subp64 2 4 6, .salui .popc 1 2 1,
   .srset g 1 .laneid, .srset g 1 .corenum,
   .fcmpH2 ⟨g, 6, .eq, 1, 2, false, false⟩, .fcmpB2 ⟨g, 6, .eq, 1, 2, false, false⟩,
   .cvt g 1 2 false .f32 .f32, .cvt g 1 2 false .s64 .f32, .cvt g 1 2 false .f32 .n64, .cvtpk g 1 3 false .f16,
   .cvtx g 1 2 false .s64 .f32 .rne false false 0, .cvtx g 2 3 false .f32 .n64 .rne false false 0,
   .cvtx g 2 4 false .f32 .f16 .rtz false true 3, .cvtx g 2 4 false .f32 .f16 .rne true true 3,
   .cvtx g 2 4 false .f32 .f16 .rne false false 3,
   .call g 0 5, .callx g 0 5 false, .spawn g 1 32 5]
/-- The same of the memory, barrier and launch instructions. -/
def illFormedMemory : List Instr :=
  let g := always
  [.ldB8 (mArg 1 3), .ldS8 (mArg 1 3), .ldB16 (mArg 1 3), .ldS16 (mArg 1 3), .ldB32 (mArg 1 3), .ldB64 (mArg 1 2),
   .ldB64 (mArg 2 3), .ldB128 (mArg 2 4), .ldB128 (mArg 4 3), .stB8 (mArg 1 3), .stB16 (mArg 1 3), .stB32 (mArg 1 3),
   .stB64 (mArg 1 2), .stB64 (mArg 2 3), .stB128 (mArg 2 4), .stB128 (mArg 4 3),
   .ldx (mArg 1 3) 0 .b8 .normal .package, .ldx (mArg 1 2) 0 .b64 .normal .package, .ldx (mArg 2 2) 0 .b128 .normal .package,
   .stx (mArg 1 3) 0 .b8 .normal .package, .stx (mArg 1 2) 0 .b64 .normal .package, .stx (mArg 1 2) 0 .s8 .normal .package,
   .stx (mArg 1 2) 0 .s16 .normal .package, .lea (mArg 1 2) 0 .b8, .lea (mArg 2 3) 0 .b8,
   .atom g 1 ⟨0, 3, false, false, .package, false⟩ 2 false .add .s32, .atom g 1 ⟨0, 3, false, false, .core, true⟩ 2 false .add .s32,
   .atom g 2 ⟨0, 3, false, false, .warp, true⟩ 4 false .add .n64, .atom g 1 ⟨0, 2, false, false, .package, false⟩ 2 false .add .b32,
   .atom g 1 ⟨0, 2, false, false, .package, false⟩ 2 false .add .n64, .atom g 2 ⟨0, 2, false, false, .package, false⟩ 3 false .add .n64,
   .atomcas g 1 ⟨0, 3, false, false, .package, false⟩ 2 false 4 false .b32 0,
   .atomcas g 1 ⟨0, 2, false, false, .package, false⟩ 2 false 4 false .b64 0,
   .atomcas g 2 ⟨0, 2, false, false, .package, false⟩ 3 false 4 false .b64 0,
   .atomcas g 2 ⟨0, 2, false, false, .package, false⟩ 2 false 5 false .b64 0,
   .red g ⟨0, 2, false, false, .package, false⟩ 2 false .exch .b32, .red g ⟨0, 2, false, false, .package, false⟩ 2 false .inc .s32,
   .red g ⟨0, 2, false, false, .package, false⟩ 3 false .add .n64, .red g ⟨0, 3, false, false, .package, false⟩ 2 false .add .n32,
   .cctl g .l1inv 0 3 false false, .prefetch g false 0 3 false false, .icinv g .package 0 3 false false,
   .icinv g .warp 0 2 false false, .icinv g .domain 0 2 false false,
   .ballot g 1 0, .matchLanes ⟨g, 1, 2, false⟩, .redux ⟨g, 1, 2, false⟩ .and .s32 .rne, .redux ⟨g, 1, 2, false⟩ .add .b32 .rne,
   .redux ⟨g, 1, 2, false⟩ .add .f32 .rsr, .scan ⟨g, 1, 2, false⟩ .min .f32 .rtz false]
/-- The same of the system instructions. -/
def illFormedSystem : List Instr :=
  let g := always
  [.barArrive g ⟨.warp, 0⟩, .barWait g ⟨.quad, 8⟩, .barSync g ⟨.cluster, 8⟩, .barInit g 1 ⟨.die, 8⟩, .barDrop g ⟨.package, 4⟩,
   .barTest g 0 ⟨.domain, 4⟩, .deqPush g 1 3 false, .deqPop g 1 2, .deqSteal g 1 2, .launch g 1 2 3 false false,
   .regGrow g 7, .regGrow g 33, .regShrink g 7, .regShrink g 33,
   .epi g 1 1 .memory .none 0 false false false false .normal, .epi g 1 1 .tile .none 1 false false false false .normal,
   .epi g 1 0 .scratch .none 1 false false false false .keep, .copy g 1 1 .tile .tile .strided 2 .normal,
   .copy g 1 1 .memory .scratch .strided 2 .normal, .copy g 1 1 .memory .tile .strided 5 .normal,
   .tcvt g false .rtz 1 2, .tcvt g true .rtz 1 1, .namePub g 1 2 false, .nameGet g 1 2 false, .nameRetire g 2 false,
   .lanechk g 1 3, .unassignedOpcodeIssue 0x70000000]
theorem test_ill_formed_refused : illFormed.all (fun i => !fieldsOk i) = true := by decide
theorem test_ill_formed_memory_refused : illFormedMemory.all (fun i => !fieldsOk i) = true := by decide
theorem test_ill_formed_system_refused : illFormedSystem.all (fun i => !fieldsOk i) = true := by decide
/-- The same as the predicate: a pair register field that is odd. -/
theorem test_odd_pair_is_ill_formed : ¬ WellFormed (.ballot always 1 0) := by unfold WellFormed; decide

/-! ## Words that the spec's worked examples print -/

/-- Chapters 3 to 6. -/
def printedWords : List (Word × Word × Instr) :=
  let g := always
  [(0x84708111, 0, .ldB32 ⟨g, 2, 1, 4, false, true⟩), (0x4370C208, 0, .ffma ⟨g, 3, 2, 2, false, false⟩), (0x01704101, 0, .iaddi ⟨g, 1, 1, 1⟩),
   (0x30708114, 0, .icmp ⟨g, 0, .lt, 1, 5, false, false⟩), (0x71000000, 0, .bra ⟨false, 0⟩ 0), (0x78700000, 0, .quit g),
   (0xE070C000, 0xFFFFFFFF, .movi g 3 0xFFFFFFFF), (0x0A71420C, 0, .idivS32 ⟨g, 5, 2, 3, false, false⟩),
   (0x3B104418, 0, .salui .add64 4 4 16), (0xE672020C, 0x11240000, .ffma4 ⟨g, 8, 2, 3, false, false⟩ 4 false .rsr .b2 false true),
   (0x68718540, 0, .cvt g 6 5 false .bf16 .f32), (0xE2724100, 0x30700000, .cvtx g 9 1 false .e4 .f32 .rdn true false 0),
   (0x4270C104, 0, .fmul ⟨g, 3, 1, 1, false, false⟩), (0x38710300, 0, .mov ⟨g, 4, 3, false⟩), (0x44710104, 0, .ffms ⟨g, 4, 1, 1, false, false⟩),
   (0x747400C0, 0, .call g 2 0xC0), (0x757C0900, 0, .callx g 6 9 false), (0x76700000, 0, .ret g), (0x7371A000, 0xFFFFFFF4, .bru g 6 true false 0xFFFFFFF4),
   (0x7771C200, 0x80, .spawn g 7 2 0x80), (0x7A70002A, 0, .trap g 0x2A),
   (0xE3730321, 0xFFFFFA69, .ldx ⟨g, 12, 3, 8, false, true⟩ 0xFFFFFA .s16 .stream .core)]
/-- Chapters 8 to 18. R339 prints LANECHK with the code of PWR.HINT; the word here has the code that its rule gives (DEDUCED, log entry 111). -/
def printedWordsLater : List (Word × Word × Instr) :=
  let g := always
  [(0xB3718424, 0, .shflXor ⟨g, 6, 4, 9, false, false⟩), (0xB8728300, 0x02000000, .redux ⟨g, 10, 3, false⟩ .add .f32 .rne),
   (0xCB70C228, 0, .launch g 3 2 10 false false), (0xC8724400, 0, .deqPush g 9 4 false), (0xCC700018, 0, .regGrow g 24),
   (0xCE70801C, 0, .step g 2 7 false), (0x8D714219, 0, .lds ⟨g, 5, 2, 6, false, true⟩),
   (0x92718210, 0x1C40A200, .atomcas g 6 ⟨2, 4, false, false, .package, false⟩ 7 false 8 false .b32 1),
   (0x91728210, 0x0C08A000, .atom g 10 ⟨2, 4, false, false, .package, false⟩ 3 false .add .b2), (0x94700006, 0, .fence g .domain),
   (0x9670C321, 0, .icinv g .cluster 3 8 false true), (0xE3104000, 0x0000C005, .ldx ⟨⟨false, 1⟩, 1, 0, 0, false, false⟩ 0xC0 .b8 .normal .package),
   (0xB2710154, 0, .shflDown ⟨g, 4, 1, 21, false, false⟩), (0x7190001A, 0, .bra ⟨true, 1⟩ 0x1A), (0xB872C500, 0x11000000, .redux ⟨g, 11, 5, false⟩ .min .n32 .rne),
   (0x24504910, 0, .shli ⟨⟨false, 5⟩, 1, 9, 16⟩), (0xE402CE01, 0x00020085, .stx ⟨⟨false, 0⟩, 11, 14, 0, false, true⟩ 0x200 .b32 .normal .package),
   (0xD5730000, 0x14000000, .epi g 12 0 .memory .relu 2 false false false false .normal), (0xD7730026, 0, .tcvt g true .rsr 2 6),
   (0xD8714324, 0, .tmovGet g 5 3 9 false), (0xF8700001, 0, .pwrHint g .memoryBound), (0xF971000F, 0, .lanechk g 4 0xF)]
theorem test_decode_printed : printedWords.all (fun e => decodesTo e.1 e.2.1 e.2.2) = true := by decide
theorem test_decode_printed_later : printedWordsLater.all (fun e => decodesTo e.1 e.2.1 e.2.2) = true := by decide

/-! ## A small state in which an instruction is issued -/

/-- A fibre at the third word of a clause at 0x100, v8 holding 3, v9 0x1000 and every other entry zero, all full; `h` says whether it runs its handler. -/
def fib (h : Bool) : Fibre :=
  { pc := 0x103, hdr := 0x100, inside := true, body := List.replicate 7 0, depth := 1, wb := 64, gen := 1, handler := h
    entries := [(72, ⟨3, true⟩), (73, ⟨0x1000, true⟩)]
    tr := if h then { pc := 0x200, hdr := 0x200 } else {} }
/-- A warp of three such fibres. s10 holds an address in page 1 and s12 one beyond 56 bits, s32 one two bytes before; s4 is the control word of 2 rows and 2
columns in slot 0 and s5 that of 2 rows and no column; t0 is ready, t1 ready with a reader, t2 empty, t3 being filled, t4
draining and t5 not configured; t6 and t7 are ready in slot 2, t8 has other rows and t9 a slot that is not usable. -/
def wp (h : Bool) : Warp :=
  { warpid := 0, slots := [(0, fib h), (1, fib h), (2, fib h)], alloc := 256, issues := 5
    sregs := [(4, ⟨0x1010, true⟩), (5, ⟨0x10, true⟩), (10, ⟨0x10000, true⟩), (13, ⟨0x01000000, true⟩), (21, ⟨64, true⟩),
              (22, ⟨128, true⟩), (23, ⟨192, true⟩), (24, ⟨0x18000040, true⟩), (26, ⟨0x10002, true⟩), (28, ⟨0x1000, true⟩),
              (30, ⟨256, true⟩), (31, ⟨320, true⟩), (32, ⟨0xFFFFFFFE, true⟩), (33, ⟨0x00FFFFFF, true⟩), (63, ⟨66, true⟩)]
    tiles := [(0, { cfg := true, ctl := 0x1010, state := .ready }), (1, { cfg := true, ctl := 0x1010, state := .ready, readers := 1 }),
              (2, { cfg := true, ctl := 0x1010 }), (3, { cfg := true, ctl := 0x1010, state := .filling }),
              (4, { cfg := true, ctl := 0x1010, state := .draining, readers := 1 }),
              (6, { cfg := true, ctl := 0x1012, state := .ready }), (7, { cfg := true, ctl := 0x1012, state := .ready }), (8, { cfg := true, ctl := 0x1020, state := .ready }),
              (9, { cfg := true, ctl := 0x1013, state := .ready })] }
/-- Warp 0 of launch 9. -/
def key : WarpKey := ⟨9, 0⟩
/-- The issue of an instruction for its fibres 0 and 1. -/
def iss : Issue :=
  { key := key, sel := { chosen := [0, 1], lanes := [0, 1], escort := false, all := false }, pc := 0x103, hdr := 0x100, len := 1
    w0 := 0, w1 := 0 }
/-- A launch with a handler, scratch, tiles, accumulator slots and formats. -/
def la : Launch :=
  { record := { lid := 9, flags := 0x40, handler := 0x900, scratch := 4096, tiles := 65536, accs := 4, regs := 256, seed := 77
                fmt := [0, 1, 2, 0x10, 0x8003, 3, 4, 5] }
    root := 0x2000, dies := [0] }
/-- Parameter blocks (R296): at 64 for one iteration, at 128 for EPI of 2 rows and 2 columns to memory at 0x10000, at 192 for EPI to
a tile, at 256 for COPY of two words from 0x10000 to a tile, and at 320 the reverse. -/
def scratchBytes : NMap Byte :=
  [(72, 1), (80, 1), (88, 1), (96, 1), (104, 1),
   (136, 2), (138, 4), (144, 2), (146, 8), (152, 1), (160, 1), (168, 1), (178, 1),
   (200, 2), (208, 2), (216, 1), (224, 1), (232, 1),
   (264, 2), (266, 4), (269, 4), (272, 1), (280, 1), (288, 1), (296, 1), (306, 1),
   (328, 2), (330, 4), (333, 4), (336, 1), (344, 1), (352, 1), (360, 1), (378, 1)]
/-- The group stands on core 3; an engine command holds its core barrier 2, and slot 0 of its ring is full. -/
def grp : Group :=
  { place := .resident 3, scratch := scratchBytes, head := 1, ring := [(0, { state := .full })], bars := [(2, { e := 2, engines := 1 })] }
/-- The package: the launch and its group, whose die holds a translation of page 1 of its root. -/
def st (h : Bool) : State :=
  { level := 2, issue := some iss, launches := [(9, la)], groups := [(⟨9, 0⟩, grp)], warps := [(key, wp h)]
    dies := [(0, { tlb := [{ root := 0x2000, vpage := 1, ppage := 100, r := true, w := true, x := true }] })] }

theorem fibres_are (h : Bool) (l : Lane) (f : Fibre) (e : (wp h).fibre? l = some f) : f = fib h := by
  match l with
  | 0 | 1 | 2 => exact ((Option.some.injEq ..).mp e).symm
  | n + 3 => simp [Warp.fibre?, wp, nget?] at e

/-- Every entry of these fibres is full. -/
theorem all_full (h : Bool) (j : Nat) : ((fib h).entry j).full = true := by
  by_cases e : j = 72
  · subst e; rfl
  · by_cases e' : j = 73
    · subst e'; rfl
    · simp [Fibre.entry, fib, ngetD, nget?, Ne.symm e, Ne.symm e', Entry.zero]

/-- The warp is ready for any instruction in every state in which it stands at this issue, since every entry is full. -/
theorem ready_in {s : State} {h : Bool} (g : Option Guard) {u : Uses} (e : u.waits (wp h) (fib h) = false) (i : s.issue = some iss)
    (w : s.warp? key = some (wp h)) (a : s.inject.arm = false) : Ready s iss (wp h) g u where
  issue := i
  warp := w
  ascending := by decide
  fibres := by cases h <;> decide
  free := rfl
  settled := rfl
  unarmed := a
  full l f _ hf := fibres_are h l f hf ▸ e
  calm l f _ hf := fibres_are h l f hf ▸ rfl
theorem ready (h : Bool) (g : Option Guard) (u : Uses) (e : u.waits (wp h) (fib h) = false) : Ready (st h) iss (wp h) g u :=
  ready_in g e rfl rfl rfl

/-- What a table says of an instruction of this warp. -/
def waitsNot (m : Meaning) : Bool := !m.uses.waits (wp false) (fib false)

/-! ## Witnesses: instructions of one fibre -/

/-- Operands that every check lets pass: registers 2, 4 and 6. -/
def fa3 : FmtA := ⟨always, 2, 4, 6, false, false⟩
def fu : FmtU := ⟨always, 2, 4, false⟩
def fb3 : FmtB := ⟨always, 2, 4, 0x80⟩

theorem meets_completes (table : Instr → Option Meaning) (l : List Instr) (h : l.all (fun i => (table i).any waitsNot) = true) :
    ∀ i ∈ l, ∃ m, table i = some m ∧ Ready (st false) iss (wp false) m.guard m.uses := by
  intro i hi
  have := List.all_eq_true.mp h i hi
  obtain ⟨m, hm, hw⟩ := (Option.any_eq_true ..).mp this
  exact ⟨m, hm, ready false _ _ (by simpa [waitsNot] using hw)⟩

def wordInstrs : List Instr :=
  [.iadd fa3, .isub fa3, .imul fa3, .imulhiS32 fa3, .imulhiN32 fa3, .iminS32 fa3, .iminN32 fa3, .imaxS32 fa3, .imaxN32 fa3,
   .iaddsatS32 fa3, .isubsatS32 fa3, .and fa3, .or fa3, .xor fa3, .andn fa3, .shl fa3, .shr fa3, .sar fa3, .rotl fa3,
   .iabs fu, .popc fu, .clz fu, .brev fu, .mov fu]
def pairInstrs : List Instr :=
  [.iadd64 fa3, .isub64 fa3, .imulwS32 fa3, .imulwN32 fa3] ++
  [ImadVar.plain, .wideS, .wideN, .sat].map (fun v => .imad fa3 8 false v)
def immInstrs : List Instr :=
  [.iaddi fb3, .andi fb3, .ori fb3, .xori fb3, .shli fb3, .shri fb3, .sari fb3, .movi always 63 0xFFFFFFFF]
def predInstrs : List Instr :=
  [IntCmp.eq, .ne, .lt, .le, .gt, .ge, .lo, .hs].map (fun c => .icmp ⟨always, 0, c, 4, 6, false, false⟩) ++
  [.icmp ⟨always, 7, .eq, 4, 6, false, false⟩, .pcomb always 0 1 7 0xAA, .pick fa3, .pread always 2, .pwrite always 2 4 false false]
def floatInstrs : List Instr :=
  [.fadd fa3, .fsub fa3, .fmul fa3, .ffma fa3, .ffms fa3, .ffnma fa3, .fmin fa3, .fmax fa3, .fscale fa3, .fabs fu, .fneg fu,
   .fclass fu, .fround always 2 4 false .rne, .fround always 2 4 false .rsr, .fdot2B2 fa3]
def bf16Instrs : List Instr :=
  [.faddB2 fa3, .fmulB2 fa3, .ffmaB2 fa3, .fminB2 fa3, .fmaxB2 fa3, .fcmpB2 ⟨always, 0, .lt, 4, 6, false, false⟩,
   .fcmpB2 ⟨always, 7, .lt, 4, 6, false, false⟩] ++
  [FltCmp.eq, .ne, .lt, .le, .gt, .ge, .un, .num].map (fun c => .fcmp ⟨always, 0, c, 4, 6, false, false⟩)
def fp16Instrs : List Instr :=
  [.faddH2 fa3, .fmulH2 fa3, .ffmaH2 fa3, .fminH2 fa3, .fmaxH2 fa3, .fcmpH2 ⟨always, 5, .num, 4, 6, false, false⟩]
def convInstrs : List Instr :=
  [.cvt always 2 4 false .f32 .s32, .cvt always 2 4 false .e4 .f32, .cvtx always 2 4 false .s64 .f32 .rsr true false 0,
   .ffma4 fa3 8 false .rne .f32 false true, .ffma4 fa3 8 false .rsr .h2 true false, .ffma4 fa3 8 false .rdn .b2 true true] ++
  [PackSel.f16, .bf16, .e4, .e5].map (fun p => .cvtpk always 2 4 false p)

theorem witness_WordArithmetic : ∀ i ∈ wordInstrs, ∃ m, wordTable i = some m ∧ Ready (st false) iss (wp false) m.guard m.uses :=
  meets_completes _ _ (by decide)
theorem witness_WordArithmetic_fields : ∀ i ∈ [.bfxN32 fa3, .bfxS32 fa3, .bfi fa3],
    ∃ m, fieldTable i = some m ∧ Ready (st false) iss (wp false) m.guard m.uses := meets_completes _ _ (by decide)
theorem witness_ByteDotProduct : (0x15000000 : Word).extractLsb' 24 8 = 0x15 ∧ ∀ i ∈ [.idot4S8 fa3, .idot4S8 ⟨⟨true, 0⟩, 63, 63, 63, true, true⟩],
    ∃ m, dotTable i = some m ∧ Ready (st false) iss (wp false) m.guard m.uses := ⟨by decide, meets_completes _ _ (by decide)⟩
theorem witness_PairArithmetic : ∀ i ∈ pairInstrs, ∃ m, pairTable i = some m ∧ Ready (st false) iss (wp false) m.guard m.uses :=
  meets_completes _ _ (by decide)
theorem witness_ImmediateArithmetic : ∀ i ∈ immInstrs, ∃ m, immTable i = some m ∧ Ready (st false) iss (wp false) m.guard m.uses :=
  meets_completes _ _ (by decide)
theorem witness_PredicateResults : ∀ i ∈ predInstrs, ∃ m, predTable i = some m ∧ Ready (st false) iss (wp false) m.guard m.uses :=
  meets_completes _ _ (by decide)
theorem witness_FloatResults : ∀ i ∈ floatInstrs, ∃ m, floatTable i = some m ∧ Ready (st false) iss (wp false) m.guard m.uses :=
  meets_completes _ _ (by decide)
theorem witness_PairedFloatResults : ∀ i ∈ bf16Instrs, ∃ m, bf16Table i = some m ∧ Ready (st false) iss (wp false) m.guard m.uses :=
  meets_completes _ _ (by decide)
/-- Here the level is S2, as the condition of the forms with FP16 asks. -/
theorem witness_PairedFloatResults_fp16 : (st false).level = 2 ∧ ∀ i ∈ fp16Instrs,
    ∃ m, fp16Table i = some m ∧ Ready (st false) iss (wp false) m.guard m.uses := ⟨rfl, meets_completes _ _ (by decide)⟩
theorem witness_ConversionResults : ∀ i ∈ convInstrs,
    ∃ m, (convTable i).map (·.1) = some m ∧ Ready (st false) iss (wp false) m.guard m.uses := meets_completes _ _ (by decide)
/-- A conversion that runs below S2 has no FP16 or FP8 type. -/
theorem witness_ConversionResults_any_level : (convTable (.cvt always 2 4 false .f32 .s32)).map (·.2) = some false := by decide

/-! ## Witnesses: instructions of a warp -/

/-- A state and operands that meet every hypothesis of `Runs` on a table's entry for an instruction. -/
def RunsAt (table : (s : State) → Issue → Warp → Instr → Option (Wide s)) (s : State) (w : Warp) (i : Instr) : Prop :=
  ∃ m, table s iss w i = some m ∧ WellFormed i ∧ Ready s iss w m.guard m.uses ∧ m.need

theorem meets (h : Bool) {table : (s : State) → Issue → Warp → Instr → Option (Wide s)} {i : Instr} {m : Wide (st h)}
    (e : table (st h) iss (wp h) i = some m) (wf : fieldsOk i = true) (u : m.uses.waits (wp h) (fib h) = false) (n : m.need) :
    RunsAt table (st h) (wp h) i := ⟨m, e, wf, ready h _ _ u, n⟩

theorem meets_in {s : State} {h : Bool} {table : (s : State) → Issue → Warp → Instr → Option (Wide s)} {i : Instr} {m : Wide s}
    (a : s.issue = some iss ∧ s.warp? key = some (wp h) ∧ s.inject.arm = false) (e : table s iss (wp h) i = some m)
    (wf : fieldsOk i = true) (u : m.uses.waits (wp h) (fib h) = false) (n : m.need) : RunsAt table s (wp h) i :=
  ⟨m, e, wf, ready_in _ u a.1 a.2.1 a.2.2, n⟩

theorem eachOf {α : Type _} {P : α → Prop} {a : α} {l : List α} (h : P a) (t : ∀ j ∈ l, P j) : ∀ j ∈ a :: l, P j := by
  intro j hj
  cases hj with
  | head => exact h
  | tail _ hj => exact t j hj
theorem more {P : Instr → Prop} {i : Instr} {l : List Instr} (h : P i) (t : ∀ j ∈ l, P j) : ∀ j ∈ i :: l, P j := eachOf h t
theorem noMore {P : Instr → Prop} : ∀ j ∈ ([] : List Instr), P j := fun _ h => nomatch h

/-- No fibre runs its handler, and the launch has one. -/
theorem handled (g : Option Guard) : Handled (st false) iss (wp false) g :=
  ⟨⟨la, rfl, rfl⟩, fun l f _ hf => fibres_are false l f hf ▸ rfl⟩

def specRegs : List SpecReg :=
  [.laneid, .warpid, .groupx, .groupy, .groupz, .gangrank, .launchid, .nwarps, .depth, .wbase, .alloc, .srgen, .clklo, .clkhi,
   .retlo, .rethi, .svclevel, .corenum, .trcause, .trinfo0, .trinfo1, .trpc, .trhdr, .trsave0, .trsave1]

/-- Every sub-operation, with pair fields even and the fields that it does not use zero. -/
def saluInstrs : List Instr :=
  [.salu .add 4 10 5, .salu .sub 4 10 5, .salu .mul 4 10 5, .salu .and 4 10 5, .salu .or 4 10 5, .salu .xor 4 10 5, .salu .andn 4 10 5,
   .salu .shl 4 10 5, .salu .shr 4 10 5, .salu .sar 4 10 5, .salu .minS 4 10 5, .salu .minN 4 10 5, .salu .maxS 4 10 5,
   .salu .maxN 4 10 5, .salu .mov 4 0 5, .salu .seq 4 10 5, .salu .sne 4 10 5, .salu .sltS 4 10 5, .salu .sltN 4 10 5,
   .salu .sleS 4 10 5, .salu .sleN 4 10 5, .salu .add64 4 10 5, .salu .addp64 4 10 12, .salu .subp64 4 10 12, .salu .popc 4 10 0,
   .salu .clz 4 10 0, .salui .add 4 10 0x20, .salui .mov 4 0 0x3F, .salui .add64 4 10 0x3F, .salui .clz 4 10 0]
theorem witness_UniformResults : ∀ i ∈ [.movs always 2 4 false, .smovi always 63 0xFFFFFFFF, .smovi ⟨false, 0⟩ 63 1] ++ saluInstrs,
    RunsAt uniformTable (st false) (wp false) i := by
  repeat (first | exact noMore | refine more (meets false rfl (by decide) (by decide) trivial) ?_)
theorem witness_UniformResults_srget : ∀ n ∈ specRegs, RunsAt uniformTable (st false) (wp false) (.srget always 2 n) :=
  fun _ _ => meets false rfl rfl rfl ⟨la, rfl⟩
/-- SRGEN anywhere; the trap registers inside a handler. -/
theorem witness_UniformResults_srset : RunsAt uniformTable (st false) (wp false) (.srset always 4 .srgen) ∧
    ∀ n ∈ specRegs, n.writable = true → RunsAt uniformTable (st true) (wp true) (.srset always 4 n) :=
  ⟨meets false rfl rfl rfl (.inl rfl), fun _ _ h => meets true rfl h rfl (.inr fun l _ f hf => fibres_are true l f hf ▸ rfl)⟩

theorem witness_DivisionsCompleteLater : ∀ i ∈ [.idivS32 fa3, .iremS32 fa3, .idivN32 fa3, .iremN32 fa3],
    RunsAt divideTable (st false) (wp false) i := by
  repeat (first | exact noMore | refine more (meets false rfl (by decide) (by decide) trivial) ?_)
theorem witness_FunctionsCompleteLater : ∀ i ∈ [.frcp fu, .frsq fu, .fsqrt fu, .fex2 fu, .flg2 fu, .fsin fu, .fcos fu, .ftanh fu],
    RunsAt functionTable (st false) (wp false) i := by
  repeat (first | exact noMore | refine more (meets false rfl (by decide) (by decide) trivial) ?_)
/-- 2.0 is an input of both clauses on exact values in `FunctionsCompleteLater`, and of `TranscendentalsFaithful`. -/
theorem witness_TranscendentalsFaithful : Ordinary 0x40000000 ∧ number (0x40000000 : Word).toNat = 2 := by
  refine ⟨by unfold Ordinary; decide, ?_⟩
  have h : (0x40000000 : Word).toNat = 1073741824 := by decide
  rw [h]
  norm_num [number, single, zpow_neg]
/-- A NaN, and a number below zero. -/
theorem witness_SpecialInputs : 0x7F800000 < (0x7F800001 : Word).toNat % 2 ^ 31 ∧ 0x80000000 < (0xBF800000 : Word).toNat ∧
    (0xBF800000 : Word).toNat ≤ 0xFF800000 := by decide
theorem witness_CrossLaneResults : ∀ i ∈ [.shflIdx fa3, .shflUp fa3, .shflDown fa3, .shflXor fa3, .vote always 0 .all 1,
    .vote always 0 .any 1, .vote always 0 .same 1, .vote always 7 .odd 1, .ballot always 2 0, .elect always 0 2, .matchLanes fu,
    .redux fu .add .f32 .rdn, .redux fu .add .s32 .rne, .redux fu .min .s32 .rne, .redux fu .max .n32 .rne, .redux fu .xor .b32 .rne,
    .scan fu .add .n32 .rne true, .scan fu .max .f32 .rne false], RunsAt crossTable (st false) (wp false) i := by
  repeat (first | exact noMore | refine more (meets false rfl (by decide) (by decide) trivial) ?_)
/-- The source lane of s5 is 16, which holds no fibre; that of s21 is 0, whose entry is full. -/
theorem witness_CrossLaneResults_readlane : RunsAt crossTable (st false) (wp false) (.readlane always 2 4 5 false false) ∧
    RunsAt crossTable (st false) (wp false) (.readlane always 2 4 21 false false) :=
  ⟨meets false rfl rfl rfl trivial, meets false rfl rfl rfl trivial⟩

theorem witness_ControlTransfers : ∀ i ∈ [.nop always, .yieldTurn always, .bra always 0xFFFFF, .brx always 4 false,
    .bru always 4 false false 7, .bru always 4 true false 7, .bru always 6 false false 7], RunsAt controlTable (st false) (wp false) i := by
  repeat (first | exact noMore | refine more (meets false rfl (by decide) (by decide) trivial) ?_)
/-- A call of the least and of the greatest frame that the allocation holds, and a return to the first window. -/
theorem witness_ControlTransfers_calls : ∀ i ∈ [.call always 1 5, .call always 7 5, .callx always 1 4 false, .ret always],
    RunsAt controlTable (st false) (wp false) i := by
  have need (fc : Fin 8) : callNeed iss (wp false) always fc := fun l f _ hf => by
    obtain rfl := fibres_are false l f hf
    exact ⟨by decide, by revert fc; decide, fun j _ _ => all_full _ j⟩
  refine more (meets false rfl (by decide) (by decide) (need 1)) (more (meets false rfl (by decide) (by decide) (need 7))
    (more (meets false rfl (by decide) (by decide) (need 1)) (more (meets false rfl (by decide) (by decide) ?_) noMore)))
  intro l f _ hf
  obtain rfl := fibres_are false l f hf
  exact ⟨by decide, by decide, by decide, by decide, by decide, by decide, fun j _ _ => all_full _ j⟩
theorem witness_ControlTransfers_traps : ∀ i ∈ [.trap always 0xFF, .bkpt always 0],
    RunsAt controlTable (st false) (wp false) i :=
  more (meets false rfl (by decide) (by decide) (handled _)) (more (meets false rfl (by decide) (by decide) (handled _)) noMore)
theorem witness_ControlTransfers_unassigned : RunsAt controlTable (st false) (wp false) (.unassignedOpcodeIssue 0x16000000) :=
  meets false rfl (by decide) (by decide) ⟨trivial, handled _⟩
theorem witness_ControlTransfers_tret : RunsAt controlTable (st true) (wp true) (.tret always) :=
  meets true rfl (by decide) (by decide) ⟨fun l _ f hf => fibres_are true l f hf ▸ rfl, fun l f _ hf => .inl (fibres_are true l f hf ▸ rfl)⟩


/-- The state with two fibres `a` and `b` in the warp. -/
def two (h : Bool) (a b : Fibre) : Warp := { wp h with slots := [(0, a), (1, b)] }
def stTwo (h : Bool) (a b : Fibre) : State := { st h with warps := [(key, two h a b)] }
theorem two_lane {h : Bool} {a b f : Fibre} {l : Lane} (i : l ∈ iss.sel.lanes) (e : (two h a b).fibre? l = some f) : f = a ∨ f = b := by
  have : l = 0 ∨ l = 1 := by simpa [iss] using i
  rcases this with rfl | rfl
  · exact .inl ((Option.some.injEq ..).mp e).symm
  · exact .inr ((Option.some.injEq ..).mp e).symm
theorem two_acting {h : Bool} {a b f : Fibre} {l : Lane} {g : Option Guard} (i : l ∈ acting iss (two h a b) g)
    (e : (two h a b).fibre? l = some f) : f = a ∨ f = b := two_lane (List.mem_filter.mp i).1 e
theorem meets_two (h : Bool) {a b : Fibre} {table : (s : State) → Issue → Warp → Instr → Option (Wide s)} {i : Instr} {m : Wide (stTwo h a b)}
    (e : table (stTwo h a b) iss (two h a b) i = some m) (wf : fieldsOk i = true)
    (u : m.uses.waits (two h a b) a = false ∧ m.uses.waits (two h a b) b = false) (c : a.causes = [] ∧ b.causes = []) (n : m.need) :
    RunsAt table (stTwo h a b) (two h a b) i :=
  ⟨m, e, wf,
    { issue := rfl, warp := rfl, ascending := by decide, free := rfl, settled := rfl, unarmed := rfl
      fibres := fun l i => by
        have : l = 0 ∨ l = 1 := by simpa [iss] using i
        rcases this with rfl | rfl <;> rfl
      full := fun l f i e => (two_acting i e).elim (fun q => q ▸ u.1) (fun q => q ▸ u.2)
      calm := fun l f i e => (two_acting i e).elim (fun q => q ▸ c.1) (fun q => q ▸ c.2) }, n⟩
/-- Each acting fibre fails a check of its own. -/
theorem meets_trap {a b : Fibre} {u : Uses} {tr : Fibre → Option (Nat × Word × Word)} {g : Guard} (c : a.handler = false ∧ b.handler = false)
    (t : (tr a).isSome = true ∧ (tr b).isSome = true) :
    (allTrapping (stTwo false a b) iss (two false a b) g u tr).need :=
  ⟨fun _ _ i e => (two_acting i e).elim (fun q => q ▸ t.1) (fun q => q ▸ t.2),
    ⟨la, rfl, rfl⟩, fun _ _ i e => (two_acting i e).elim (fun q => q ▸ c.1) (fun q => q ▸ c.2)⟩

/-- The greatest depth; a window at the end of the allocation; the least depth; and a window at 0. -/
def deep : Fibre := { fib false with depth := 255 }
def high : Fibre := { fib false with wb := 192 }
def outermost : Fibre := { fib false with depth := 0 }
def bottom : Fibre := { fib false with wb := 0 }
theorem witness_ControlTransfers_call_traps : ∀ i ∈ [.call always 1 5, .call always 7 5, .callx always 1 4 false],
    RunsAt controlTrapTable (stTwo false deep { high with depth := 255 }) (two false deep { high with depth := 255 }) i := by
  repeat (first | exact noMore
                | refine more (meets_two false rfl (by decide) ⟨by decide, by decide⟩ ⟨rfl, rfl⟩ (meets_trap ⟨rfl, rfl⟩ ⟨by decide, by decide⟩)) ?_)
theorem witness_ControlTransfers_window_traps : ∀ i ∈ [.call always 1 5, .callx always 7 4 false],
    RunsAt controlTrapTable (stTwo false high deep) (two false high deep) i := by
  repeat (first | exact noMore
                | refine more (meets_two false rfl (by decide) ⟨by decide, by decide⟩ ⟨rfl, rfl⟩ (meets_trap ⟨rfl, rfl⟩ ⟨by decide, by decide⟩)) ?_)
theorem witness_ControlTransfers_ret_traps : RunsAt controlTrapTable (stTwo false outermost bottom) (two false outermost bottom) (.ret always) :=
  meets_two false rfl (by decide) ⟨by decide, by decide⟩ ⟨rfl, rfl⟩ (meets_trap ⟨rfl, rfl⟩ ⟨by decide, by decide⟩)
theorem witness_ControlTransfers_spawn_window : RunsAt controlTrapTable (stTwo false high high) (two false high high) (.spawn always 2 8 5) :=
  meets_two false (m := trappingEach _ iss _ always { src := [{ reg := 64, count := 64 }], dst := [vop 2] }
      (fun f => (0x09, BitVec.ofNat 32 (f.wb + 64 + 64), 0)))
    (by simp only [controlTrapTable]; exact if_pos (by decide)) (by decide) ⟨by decide, by decide⟩ ⟨rfl, rfl⟩
    ⟨trivial, ⟨la, rfl, rfl⟩, fun _ _ i e => (two_acting i e).elim (fun q => q ▸ rfl) (fun q => q ▸ rfl)⟩
/-- A warp whose 64 slots hold fibres. -/
def wpFull : Warp := { wp false with slots := (List.range 64).map (fun l => (l, fib false)) }
def stFull : State := { st false with warps := [(key, wpFull)] }
theorem full_lane {l : Lane} {f : Fibre} (e : wpFull.fibre? l = some f) : f = fib false := by
  have : ∀ s : List Nat, nget? (s.map (fun l => (l, fib false))) l = some f → f = fib false := by
    intro s
    induction s with
    | nil => intro h; cases h
    | cons a s ih =>
      intro h
      simp only [List.map_cons, nget?] at h
      split at h
      · exact ((Option.some.injEq ..).mp h).symm
      · exact ih h
  exact this _ e
theorem witness_ControlTransfers_fibre_limit : RunsAt controlTrapTable stFull wpFull (.spawn always 2 0 5) := by
  refine ⟨trapping stFull iss wpFull (some always) { src := [{ reg := 0, count := 64 }], dst := [vop 2] } 0x0B 0 2
    ((∀ e ∈ actors iss wpFull (some always), ¬ (wpFull.alloc ≤ e.2.wb + 8 * 0 + 63)) ∧ (emptySlots stFull iss wpFull).length < 2), ?_, show fieldsOk _ = true by decide, ?_, ?_⟩
  · simp only [controlTrapTable]
    exact if_neg (by decide +kernel)
  · exact { issue := rfl, warp := rfl, ascending := by decide, free := rfl, settled := rfl, unarmed := rfl, fibres := by decide
            full := fun l f _ e => full_lane e ▸ (by decide)
            calm := fun l f _ e => full_lane e ▸ rfl }
  · exact ⟨⟨by decide, by decide +kernel⟩, ⟨la, rfl, rfl⟩, fun l f _ e => full_lane e ▸ rfl⟩
/-- TRET and SRSET of a trap register outside a handler, under a guard that holds in no fibre. -/
theorem witness_ControlTransfers_privileged : ∀ i ∈ [.tret always, .tret ⟨false, 0⟩, .srset always 4 .trcause, .srset ⟨false, 0⟩ 4 .trsave1],
    RunsAt controlTrapTable (st false) (wp false) i := by
  repeat (first | exact noMore | refine more (meets false rfl (by decide) (by decide) ⟨by first | exact trivial | decide, handled _⟩) ?_)
/-- Only the first fibre of a set in the handler acts: its trap registers name word 3 of the clause at 0x4000, whose header is fetched
from memory, or at 0x100, which no page holds. -/
def returning (hdr : Word) : Fibre := { fib true with preds := 1, tr := { pc := hdr + 3, hdr := hdr } }
def stReturning (hdr : Word) : State := { stTwo true (returning hdr) (fib true) with mem := [(100 * 2 ^ 16, 3)] }
theorem witness_ControlTransfers_resume : ∀ hdr ∈ [(0x4000 : Word), 0x100],
    RunsAt resumeInsideTable (stReturning hdr) (two true (returning hdr) (fib true)) (.tret ⟨false, 0⟩) := by
  have main (hdr : Word) (small : 0 < ((hdr + 3) - hdr).toNat ∧ ((hdr + 3) - hdr).toNat ≤ 15)
      (word : ∀ h, ((stReturning hdr).fetchWord ((stReturning hdr).coreNo key) la hdr).2 = .word h → ((hdr + 3) - hdr).toNat ≤ h.toNat % 2 ^ 4) :
      RunsAt resumeInsideTable (stReturning hdr) (two true (returning hdr) (fib true)) (.tret ⟨false, 0⟩) := by
    have acts : actors iss (two true (returning hdr) (fib true)) (some ⟨false, 0⟩) = [(0, returning hdr)] := by
      simp [actors, acting, acts, guardHolds, Fibre.pred, two, returning, fib, iss, Warp.fibre?, nget?]
    have launch : (stReturning hdr).launch? iss.key.lid = some la := rfl
    unfold RunsAt resumeInsideTable
    dsimp only
    rw [acts, launch]
    refine ⟨_, rfl, rfl, ?_, fun l i x e => (two_lane i e).elim (fun q => q ▸ rfl) (fun q => q ▸ rfl), small.1, small.2, word⟩
    exact { issue := rfl, warp := rfl, ascending := by decide, free := rfl, settled := rfl, unarmed := rfl
            fibres := fun l i => by
              have : l = 0 ∨ l = 1 := by simpa [iss] using i
              rcases this with rfl | rfl <;> rfl
            full := fun l f i e => (two_acting i e).elim (fun q => q ▸ rfl) (fun q => q ▸ rfl)
            calm := fun l f i e => (two_acting i e).elim (fun q => q ▸ rfl) (fun q => q ▸ rfl) }
  intro hdr i
  rcases List.mem_cons.mp i with rfl | i
  · refine main _ (by decide) fun h e => ?_
    rw [show ((stReturning 0x4000).fetchWord ((stReturning 0x4000).coreNo key) la 0x4000).2 = .word 3 by decide] at e
    cases e
    decide
  · obtain rfl := List.mem_singleton.mp i
    refine main _ (by decide) fun h e => ?_
    rw [show ((stReturning 0x100).fetchWord ((stReturning 0x100).coreNo key) la 0x100).2 = .fault 1 by decide] at e
    cases e
/-! ## Witnesses: memory accesses -/

/-- The page that the die's translation gives. -/
def page : LastPage := { vpage := 1, ppage := 100, r := true, w := true, x := true, gen := 0 }
/-- Where the access of a fibre lands: at byte `o` of page 1, or of the group's scratch. -/
def placed (m : MemAccess) (loc : Loc) (loc2 : Option Loc) (va : Nat) (l : Lane) : Placed :=
  { lane := l, loc := loc, loc2 := loc2, va := va, data := m.data (fib false), dst := match m.dst with
      | some (r, n) => (fib false).entriesFrom r n
      | none => [] }

/-- A state and operands that meet every hypothesis of `Accesses` on an instruction. -/
def AccessAt (i : Instr) : Prop :=
  ∃ m ps, accessTable i = some m ∧ WellFormed i ∧ Ready (st false) iss (wp false) (some m.guard) m.uses ∧
    LogFree iss (wp false) (some m.guard) ∧ (m.op.compared = true → Compared (st false) iss (wp false)) ∧
    DetOk (st false) iss m (ps.map Prod.fst) ∧ EachLands (st false) iss (wp false) m ps

theorem logFree (g : Option Guard) : LogFree iss (wp false) g := fun _ => ⟨by decide, fun _ _ _ he => nomatch he⟩
theorem compared (h : Bool) : Compared (st h) iss (wp h) := fun e => nomatch e

theorem eachLands {m : MemAccess} {loc : Loc} {loc2 : Option Loc} {va : Nat} {q : Option LastPage} (g : m.guard = always)
    (h : ∀ l, Lands (st false) iss (wp false) m l (fib false) (placed m loc loc2 va l) q) :
    EachLands (st false) iss (wp false) m [(placed m loc loc2 va 0, q), (placed m loc loc2 va 1, q)] := by
  unfold EachLands
  rw [g, show actors iss (wp false) (some always) = [(0, fib false), (1, fib false)] from rfl]
  refine ⟨rfl, fun j e p he hp => ?_⟩
  match j with
  | 0 => cases he; cases hp; exact h 0
  | 1 => cases he; cases hp; exact h 1
  | n + 2 => simp at he

theorem meetsMemory {i : Instr} {m : MemAccess} {va : Nat} (e : accessTable i = some m) (wf : fieldsOk i = true)
    (g : m.guard = always) (u : m.uses.waits (wp false) (fib false) = false) (hs : m.space = .memory)
    (ha : address m (wp false) (fib false) = va) (small : va < 2 ^ 56 ∧ va % m.align = 0) (sp : spansWords m va = false)
    (t : (st false).translateFor 3 0x2000 va m.op.kind none = .ok (va + 99 * 2 ^ 16) page) : AccessAt i := by
  refine ⟨m, _, e, wf, ready false _ _ u, logFree _, fun _ => compared false, (fun h => nomatch h),
    eachLands (loc := .mem (va + 99 * 2 ^ 16)) (loc2 := none) (va := va) (q := some page) g fun l => ⟨rfl, rfl, rfl, ?_⟩⟩
  rw [hs]
  dsimp only
  subst ha
  rw [sp]
  exact ⟨⟨small.1, small.2, fun h => (Bool.eq_false_iff.mp sp h).elim, fun r hr => nomatch hr⟩, rfl, _, page, t, rfl, rfl, rfl⟩

def memoryInstrs : List Instr :=
  let m : FmtM := { g := always, r := 4, vo := 2, sbase := 10, fa := false, scale := true }
  let at_ (s : Scope) : AtomAddr := ⟨2, 10, false, false, s, false⟩
  [.ldB8 m, .ldS8 m, .ldB16 m, .ldS16 m, .ldB32 m, .ldB64 m, .ldB128 m, .stB8 m, .stB16 m, .stB32 m, .stB64 m, .stB128 m,
   .ldx m 0x10 .b128 .bypassL1 .domain, .ldx m 0xFFFF .b8 .normal .core, .stx m 0xFFF8 .b64 .stream .package,
   .atom always 4 (at_ .package) 6 false .add .s32, .atom always 4 (at_ .domain) 6 false .exch .b64,
   .atom always 4 (at_ .die) 6 false .max .h2, .atomcas always 4 (at_ .package) 6 false 8 false .b64 0,
   .atomcas always 4 (at_ .package) 6 false 8 false .b16 7, .red always (at_ .core) 6 false .add .f32,
   .red always (at_ .warp) 6 false .add .n64, .launch always 4 2 10 false false]
theorem witness_AccessesGoOut : ∀ i ∈ memoryInstrs, AccessAt i := by
  repeat (first | exact noMore | refine more (meetsMemory rfl (by decide) rfl (by decide) rfl rfl (by decide) (by decide) (by decide)) ?_)

theorem meetsScratch {i : Instr} {m : MemAccess} {x o : Nat} (e : accessTable i = some m) (wf : fieldsOk i = true)
    (g : m.guard = always) (u : m.uses.waits (wp false) (fib false) = false) (hs : m.space ≠ .memory)
    (hx : scratchX m (wp false) (fib false) = x) (hp : scratchPlace (st false) iss m x = (3, o))
    (fit : o + m.size ≤ 4096 ∧ o % m.align = 0) (one : spansWords m o = false) : AccessAt i := by
  refine ⟨m, _, e, wf, ready false _ _ u, logFree _, fun _ => compared false, (fun h => nomatch h),
    eachLands (loc := .scr ⟨9, 0⟩ o) (loc2 := none) (va := o) (q := none) g fun l => ⟨rfl, rfl, rfl, ?_⟩⟩
  subst hx
  split
  · exact absurd ‹_› hs
  · dsimp only
    rw [hp]
    exact ⟨⟨9, 0⟩, la, rfl, rfl, fit.1, fit.2, (fun r hr => nomatch hr), rfl, rfl, (if_neg (by rw [one]; decide)).symm, rfl⟩
def scratchInstrs : List Instr :=
  let m (b : Reg) : FmtM := { g := always, r := 4, vo := 2, sbase := b, fa := false, scale := false }
  let at_ : AtomAddr := ⟨2, 22, false, false, .warp, true⟩
  [.lds (m 21), .sts (m 21), .ldc (m 24), .stc (m 24), .atom always 4 at_ 6 false .add .n32, .atomcas always 4 at_ 6 false 8 false .b32 0,
   .red always at_ 6 false .max .s32]
theorem witness_AccessesGoOut_scratch : ∀ i ∈ scratchInstrs, AccessAt i := by
  repeat (first | exact noMore | refine more (meetsScratch (o := 64) rfl (by decide) rfl (by decide) (by decide) rfl rfl (by decide) rfl) ?_
                | refine more (meetsScratch (o := 128) rfl (by decide) rfl (by decide) (by decide) rfl rfl (by decide) rfl) ?_)
def twoWords : AtomAddr := ⟨2, 26, false, false, .package, false⟩
/-- A paired atomic whose halves lie in two words: the page is that of the second. -/
theorem witness_AccessesGoOut_two_words : AccessAt (.atom always 4 twoWords 6 false .add .b2) := by
  refine ⟨_, _, rfl, rfl, ready false _ _ (by decide), logFree _, fun _ => compared false, (fun h => nomatch h),
    eachLands (m := atomics always twoWords 4 2 (.atom .add .b2) [6] [false] (some 4) (fun x => operandOf x 6 4))
      (loc := .mem (0x10002 + 99 * 2 ^ 16)) (loc2 := some (.mem (0x10004 + 99 * 2 ^ 16))) (va := 0x10002) (q := some page) rfl
      fun l => ⟨rfl, rfl, rfl, ⟨by decide, by decide, fun _ => by decide, fun r hr => nomatch hr⟩, show 0x10002 = address _ _ _ by decide, ?_⟩⟩
  rw [if_pos (show spansWords _ _ = true by decide)]
  exact ⟨0x10002 + 99 * 2 ^ 16, 0x10004 + 99 * 2 ^ 16, page, page, by decide, by decide, rfl, rfl, rfl⟩

def twoHalves : AtomAddr := ⟨2, 63, false, false, .warp, true⟩
/-- A paired reduction whose halves lie in two words of scratch. -/
theorem witness_AccessesGoOut_two_scratch_words : AccessAt (.red always twoHalves 6 false .max .h2) := by
  refine ⟨_, _, rfl, rfl, ready false _ _ (by decide), logFree _, fun _ => compared false, (fun h => nomatch h),
    eachLands (m := atomics always twoHalves 4 2 (.red .max .h2) [6] [false] none (fun x => operandOf x 6 4))
      (loc := .scr ⟨9, 0⟩ 66) (loc2 := some (.scr ⟨9, 0⟩ 68)) (va := 66) (q := none) rfl fun l => ⟨rfl, rfl, rfl, ?_⟩⟩
  exact ⟨⟨9, 0⟩, la, rfl, rfl, by decide, by decide, (fun r hr => nomatch hr), rfl, rfl, rfl, rfl⟩

/-- A misaligned address, one beyond 56 bits, a pair whose second half alone lies there, and a scratch address beyond the group's share trap in every acting fibre. -/
theorem witness_BadAddressesTrap : ∀ i ∈ [.ldB32 (mArg 4 26), .stB64 (mArg 4 26), .ldB8 (mArg 4 12), .stB8 (mArg 4 12),
    .lds (mArg 4 4), .ldc (mArg 4 21), .sts (mArg 4 28), .atom always 4 ⟨0, 26, false, false, .package, false⟩ 6 false .add .s32,
    .atomcas always 4 ⟨0, 26, false, false, .package, false⟩ 6 false 8 false .b32 0,
    .red always ⟨0, 26, false, false, .package, false⟩ 6 false .add .s32, .red always ⟨0, 32, false, false, .package, false⟩ 6 false .add .b2,
    .launch always 4 0 26 false false],
    RunsAt badAccessTable (st false) (wp false) i := by
  have need (m : MemAccess) (hc : m.op.compared = true ∨ m.op.compared = false) (b : (badAccess (st false) iss (wp false) m (fib false)).isSome = true) :
      (LogFree iss (wp false) (some m.guard) ∧ (m.op.compared = true → Compared (st false) iss (wp false)) ∧
        ((st false).isDet iss.key = true → ∀ op ty, m.op = .atom op ty → ty ≠ .f32 ∧ ty ≠ .h2 ∧ ty ≠ .b2) ∧
        ∀ l f, l ∈ acting iss (wp false) (some m.guard) → (wp false).fibre? l = some f → (badAccess (st false) iss (wp false) m f).isSome = true) ∧
      Handled (st false) iss (wp false) (some m.guard) :=
    ⟨⟨logFree _, fun _ => compared false, (fun h => nomatch h), fun l f _ hf => fibres_are false l f hf ▸ b⟩, handled _⟩
  repeat (first | exact noMore | refine more (meets false rfl (by decide) (by decide) (need _ (by decide) (by decide))) ?_)
/-- s12 and s13 hold 2^56: the least address that faults. -/
theorem witness_HighAddressesFault : ∀ i ∈ [.ldB8 (mArg 4 12), .ldB128 (mArg 4 12), .stB32 (mArg 4 12),
    .ldx (mArg 4 12) 0 .s16 .normal .warp, .stx (mArg 4 12) 0 .b64 .normal .warp,
    .atom always 4 ⟨0, 12, false, false, .package, false⟩ 6 false .add .s32,
    .atomcas always 4 ⟨0, 12, false, false, .package, false⟩ 6 false 8 false .b32 0,
    .red always ⟨0, 12, false, false, .package, false⟩ 6 false .add .s32, .launch always 4 0 12 false false],
    ∃ m, accessTable i = some m ∧ m.space = .memory ∧ WellFormed i ∧ Ready (st false) iss (wp false) (some m.guard) m.uses ∧
      Handled (st false) iss (wp false) (some m.guard) ∧ acting iss (wp false) (some m.guard) ≠ [] ∧
      LogFree iss (wp false) (some m.guard) ∧ (m.op.compared = true → Compared (st false) iss (wp false)) ∧ (st false).isDet iss.key = false ∧
      ∀ l f, l ∈ acting iss (wp false) (some m.guard) → (wp false).fibre? l = some f → 2 ^ 56 ≤ address m (wp false) f := by
  have need (m : MemAccess) (u : m.uses.waits (wp false) (fib false) = false) (a : acting iss (wp false) (some m.guard) ≠ [])
      (b : 2 ^ 56 ≤ address m (wp false) (fib false)) : Ready (st false) iss (wp false) (some m.guard) m.uses ∧
      Handled (st false) iss (wp false) (some m.guard) ∧ acting iss (wp false) (some m.guard) ≠ [] ∧
      LogFree iss (wp false) (some m.guard) ∧ (m.op.compared = true → Compared (st false) iss (wp false)) ∧ (st false).isDet iss.key = false ∧
      ∀ l f, l ∈ acting iss (wp false) (some m.guard) → (wp false).fibre? l = some f → 2 ^ 56 ≤ address m (wp false) f :=
    ⟨ready false _ _ u, handled _, a, logFree _, fun _ => compared false, rfl, fun l f _ hf => fibres_are false l f hf ▸ b⟩
  repeat (first | exact noMore | refine more ⟨_, rfl, rfl, rfl, need _ (by decide) (by decide) (by decide)⟩ ?_)

/-- A line of page 1, one whose address is beyond 56 bits, and one that no page holds. -/
theorem witness_CacheOperations : ∀ i ∈ [.lea (mArg 4 10) 0xFFFFFF .b128, .fence always .package, .fence ⟨false, 0⟩ .warp,
    .cctl always .l1inv 0 10 false false, .cctl always .l2evict 0 12 false true, .cctl always .l1clean 0 28 false false,
    .cctl always .l2clean 0 10 false true, .prefetch always true 0 10 false false], RunsAt cacheTable (st false) (wp false) i := by
  repeat (first | exact noMore | refine more (meets false rfl (by decide) (by decide) trivial) ?_
                | refine more (meets false rfl (by decide) (by decide) (logFree _)) ?_)

/-- The start of ICINV, in fibres that name one page. -/
theorem witness_CacheOperations_icinv : WellFormed (.icinv always .core 0 10 false false) ∧
    Ready (st false) iss (wp false) (some always) { src := [vop 0 false, sop 10 false 2] } ∧ acting iss (wp false) (some always) ≠ [] ∧
    LogFree iss (wp false) (some always) ∧ ∀ e ∈ actors iss (wp false) (some always),
      cacheAddress (wp false) e.2 0 10 4 < 2 ^ 56 ∧ cacheAddress (wp false) e.2 0 10 4 % 4 = 0 :=
  ⟨rfl, ready false _ _ (by decide), by decide, logFree _, by decide⟩

/-- The last two fibres of a warp, all of whose entries are full. -/
theorem two_full {j : Nat} {e : Lane × Fibre} (h : e ∈ actors iss (two false (fib false) (fib false)) (some always)) :
    (e.2.entry j).full = true := by
  rw [show actors iss (two false (fib false) (fib false)) (some always) = [(0, fib false), (1, fib false)] from rfl] at h
  simp only [List.mem_cons, List.not_mem_nil, or_false] at h
  rcases h with rfl | rfl <;> exact all_full _ j
theorem two_all (l : Lane) (f : Fibre) (e : (two false (fib false) (fib false)).fibre? l = some f) :
    l ∈ acting iss (two false (fib false) (fib false)) (some always) := by
  match l with
  | 0 | 1 => decide
  | n + 2 => simp [Warp.fibre?, two, nget?] at e
theorem two_ready : Ready (stTwo false (fib false) (fib false)) iss (two false (fib false) (fib false)) (some always) {} where
  issue := rfl
  warp := rfl
  ascending := by decide
  fibres := by decide
  free := rfl
  settled := rfl
  unarmed := rfl
  full _ _ _ _ := rfl
  calm _ _ i e := (two_acting i e).elim (fun q => q ▸ rfl) (fun q => q ▸ rfl)
/-- A store of one of the two is not yet performed: the warp ends and its group stays. -/
def wpStoring : Warp := { two false (fib false) (fib false) with pend := [{ num := 1, lane := 0, kind := .cacheOp, pc := 0x100, hdr := 0x100 }] }
def stStoring : State := { st false with warps := [(key, wpStoring)] }
theorem witness_FibresComeAndGo_last : RunsAt lastQuitTable stStoring wpStoring (.quit always) :=
  ⟨_, rfl, rfl, { two_ready with issue := rfl, warp := rfl, unarmed := rfl },
    fun _ h _ => two_full h, rfl, by decide, two_all, by decide, .inl (by decide)⟩
/-- Nothing of the group is outstanding, and it is the last of its launch. -/
theorem witness_FibresComeAndGo_group : let s := stTwo false (fib false) (fib false)
    let w := two false (fib false) (fib false)
    Ready s iss w (some always) {} ∧ acting iss w (some always) ≠ [] ∧ w.ended = false ∧ w.pend = [] ∧ w.log = [] ∧
    (∀ e ∈ actors iss w (some always), ∀ j, (e.2.entry j).full = true) ∧ (∀ l f, w.fibre? l = some f → l ∈ acting iss w (some always)) ∧
    s.group? (s.groupKey key) = some grp ∧ grp.place = .resident 3 ∧ s.launch? key.lid = some la ∧ key ∈ s.warpsOf (s.groupKey key) ∧
    (∀ k' ∈ s.warpsOf (s.groupKey key), ∀ x, k' ≠ key → s.warp? k' = some x → x.ended = true ∧ x.pend = [] ∧ x.log = []) ∧
    (∀ x ∈ s.groupCommands (s.groupKey key) 3, x.stage = .ended) ∧ la.record.groups ≤ la.groupsEnded + 1 :=
  ⟨two_ready, by decide, rfl, rfl, rfl, fun _ h _ => two_full h, two_all, rfl, rfl, rfl, by decide,
    (fun k' h _ n => absurd (List.mem_singleton.mp h) n), (fun _ h => nomatch h), by decide⟩

theorem witness_FibresComeAndGo : ∀ i ∈ [.spawn always 2 0 5, .spawn always 2 16 0xFFFFFFFF, .spawn ⟨false, 0⟩ 2 31 5, .quit always],
    RunsAt fibreTable (st false) (wp false) i := by
  refine more (meets false rfl (by decide) (by decide) ⟨by decide, by decide⟩) (more (meets false rfl (by decide) (by decide) ⟨by decide, by decide⟩)
    (more (meets false rfl (by decide) (by decide) ⟨by decide, by decide⟩) (more (meets false rfl (by decide) (by decide) ⟨?_, rfl, ?_, by decide⟩) noMore)))
  · rw [show actors iss (wp false) (some always) = [(0, fib false), (1, fib false)] from rfl]
    intro e he j
    simp only [List.mem_cons, List.not_mem_nil, or_false] at he
    rcases he with rfl | rfl <;> exact all_full _ j
  · exact ⟨2, fib false, rfl, by decide⟩
/-- The clause on the generators of the fibres that SPAWN makes: two fibres are made. -/
theorem witness_GeneratorSeed : (spawns (st false) iss (wp false) always).length = 2 ∧
    (∃ m, fibreTable (st false) iss (wp false) (.spawn always 2 16 5) = some m ∧ Ready (st false) iss (wp false) m.guard m.uses ∧ m.need) ∧
    (∃ f, (la.newWarp key).fibre? 63 = some f) ∧ genSeed 0 (identity key 0) ≠ 0 :=
  ⟨by decide, ⟨_, rfl, ready false _ _ (by decide), by decide, by decide⟩, ⟨_, rfl⟩, by decide⟩

theorem witness_BarrierInstructions : ∀ i ∈ [.barArrive always ⟨.core, 15⟩, .barTest always 0 ⟨.core, 1⟩, .barArrive always ⟨.quad, 0⟩,
    .barTest always 0 ⟨.cluster, 7⟩], RunsAt barrierTable (st false) (wp false) i := by
  repeat (first | exact noMore | refine more (meets false rfl (by decide) (by decide) ⟨by decide, by decide, trivial⟩) ?_
                | refine more (meets false rfl (by decide) (by decide) ⟨by decide, by decide, (by decide : (wp false).hasArrive _ = false)⟩) ?_)
theorem witness_BarrierInstructions_settings : ∀ i ∈ [.barWait always ⟨.core, 0⟩, .barInit always 8 ⟨.core, 1⟩, .barDrop always ⟨.core, 1⟩],
    RunsAt barrierTable (st false) (wp false) i := by
  refine more (meets false rfl (by decide) (by decide) ⟨by decide, by decide, by decide, .inl rfl⟩) ?_
  exact more (meets false rfl (by decide) (by decide) ⟨by decide, by decide, by decide, by decide, by decide, by decide⟩)
    (more (meets false rfl (by decide) (by decide) ⟨by decide, by decide, by decide, by decide⟩) noMore)
/-- The launch has no barriers wider than a cluster: each of the six takes BARRIER_MEMBERSHIP. -/
theorem witness_BarrierInstructions_membership : ∀ i ∈ [.barArrive always ⟨.die, 7⟩, .barWait always ⟨.package, 3⟩,
    .barSync always ⟨.domain, 3⟩, .barInit always 2 ⟨.die, 0⟩, .barDrop always ⟨.die, 0⟩, .barTest always 0 ⟨.die, 0⟩],
    RunsAt barrierTable (st false) (wp false) i := by
  repeat (first | exact noMore | refine more (meets false rfl (by decide) (by decide) ⟨by decide, by decide, trivial, handled _⟩) ?_)
/-- The engine command holds barrier 2; a count of 0 is out of range for barrier 1. -/
theorem witness_BarrierInstructions_busy : ∀ i ∈ [.barInit always 8 ⟨.core, 2⟩, .barDrop always ⟨.core, 2⟩, .barInit always 2 ⟨.core, 1⟩],
    RunsAt barrierBusyTable (st false) (wp false) i := by
  repeat (first | exact noMore | refine more (meets false rfl (by decide) (by decide) ⟨⟨by decide, by decide, by decide⟩, handled _⟩) ?_)

theorem witness_DequeInstructions : ∀ i ∈ [.deqPush always 2 4 false, .deqPop always 2 4, .deqSteal always 2 4],
    RunsAt dequeTable (st false) (wp false) i := by
  repeat (first | exact noMore | refine more (meets false rfl (by decide) (by decide) ⟨by decide, compared _⟩) ?_)

/-- The warp has 256 entries of 65,536 in its core, and the windows of its fibres end at 128. -/
theorem witness_ResourceInstructions : ∀ i ∈ [.regGrow always 32, .regGrow always 8, .regShrink always 32, .regShrink always 16,
    .regShrink always 15, .step always 2 4 false, .pwrHint always .automatic, .pwrHint always .memoryBound, .pwrHint always .computeBound,
    .lanechk always 2 0], RunsAt resourceTable (st false) (wp false) i := by
  refine more (meets false rfl (by decide) (by decide) trivial) (more (meets false rfl (by decide) (by decide) trivial)
    (more (meets false rfl (by decide) (by decide) trivial) (more (meets false rfl (by decide) (by decide) ?_)
    (more (meets false rfl (by decide) (by decide) ⟨trivial, handled _⟩) (more (meets false rfl (by decide) (by decide) ⟨trivial, handled _⟩) ?_)))))
  · exact ⟨by decide, by decide⟩
  · exact more (meets false rfl (by decide) (by decide) ⟨by decide, trivial⟩) (more (meets false rfl (by decide) (by decide) ⟨by decide, trivial⟩)
      (more (meets false rfl (by decide) (by decide) ⟨by decide, trivial⟩) (more (meets false rfl (by decide) (by decide) ⟨by decide, by decide⟩) noMore)))
/-- The lanes and banks that LANECHK would check are retired. -/
def stRetired : State := { st false with cores := [(3, { retiredLanes := 0xFF, retiredBanks := 0xFF })] }
theorem witness_ResourceInstructions_lanechk : RunsAt resourceTable stRetired (wp false) (.lanechk always 2 1) :=
  meets_in ⟨rfl, rfl, rfl⟩ rfl (by decide) (by decide) ⟨by decide, by decide⟩
/-! ## Witnesses: waits that are over, format slots, tiles, commands and names -/

/-- The warp in a wait of its own; its arrival at core barrier 3 was counted with parity 0, and the phase has turned. -/
def waitingW (x : Waiting) : Warp := ({ wp false with waiting := x, released := true } : Warp).setArrived ⟨.core, 3⟩ true
def stWaiting (x : Waiting) : State :=
  { st false with warps := [(key, waitingW x)], groups := [(⟨9, 0⟩, { place := .resident 3, bars := [(3, { e := 1, parity := true })] })] }
theorem resumed (x : Waiting) : Resumed (stWaiting x) iss (waitingW x) where
  issue := rfl
  warp := rfl
  ascending := by decide
  fibres := show ∀ l ∈ iss.sel.lanes, ((wp false).fibre? l).isSome = true by decide
  settled := rfl
  unarmed := rfl
def ResumesAt (x : Waiting) (i : Instr) : Prop :=
  ∃ m, resumeTable (stWaiting x) iss (waitingW x) i = some m ∧ Resumed (stWaiting x) iss (waitingW x) ∧ m.need
theorem witness_WaitsEnd : ResumesAt (.barrier ⟨.core, 3⟩) (.barWait always ⟨.core, 3⟩) ∧ ResumesAt (.barrier ⟨.core, 3⟩) (.barSync always ⟨.core, 3⟩) ∧
    ResumesAt (.grow 512) (.regGrow always 64) ∧ ResumesAt .step (.step always 2 4 false) ∧
    ResumesAt (.icinv .core [1]) (.icinv always .core 0 10 false false) := by
  refine ⟨⟨_, rfl, resumed _, ?_⟩, ⟨_, rfl, resumed _, ?_⟩, ⟨_, rfl, resumed _, rfl, .inl rfl⟩, ⟨_, rfl, resumed _, rfl, rfl⟩,
    ⟨_, rfl, resumed _, ⟨[1], rfl⟩, rfl⟩⟩
  all_goals exact ⟨by decide, rfl, by decide, by decide, .inr (by decide)⟩

/-- The launch's slot 0 is FP32 in RNE, slot 4 rounds with RSR, and slot 3 is not valid: it scales FP32 by blocks. -/
theorem witness_FormatSlotTraps : RunsAt slotTable (st false) (wp false) (.cvtx always 2 4 false .f32 .f16 .rne false true 0) ∧
    RunsAt slotTable (st false) (wp false) (.cvtx always 2 4 false .e4 .n64 .rne false true 4) ∧
    RunsAt slotTable (st false) (wp false) (.cvtx always 2 4 false .f32 .s32 .rne false true 3) :=
  ⟨meets false rfl (by decide) (by decide) trivial, meets false rfl (by decide) (by decide) trivial, meets false rfl (by decide) (by decide) ⟨trivial, handled _⟩⟩
def stLow (n : Nat) : State := { st false with level := n }
theorem handled_low (n : Nat) (g : Option Guard) : Handled (stLow n) iss (wp false) g :=
  ⟨⟨la, rfl, rfl⟩, fun l f _ hf => fibres_are false l f hf ▸ rfl⟩
theorem witness_FormatSlotTraps_low : ∀ i ∈ [.faddH2 fa3, .fmulH2 fa3, .ffmaH2 fa3, .fminH2 fa3, .fmaxH2 fa3,
    .fcmpH2 ⟨always, 7, .eq, 4, 6, false, false⟩, .cvt always 2 4 false .f16 .f32, .cvtpk always 2 4 false .e5,
    .cvtx always 2 4 false .s32 .e4 .rtz true false 0, .ffma4 fa3 8 false .rne .h2 false false],
    RunsAt lowTable (stLow 0) (wp false) i ∧ RunsAt lowTable (stLow 1) (wp false) i := by
  repeat (first | exact noMore | refine more ⟨meets_in ⟨rfl, rfl, rfl⟩ rfl (by decide) (by decide) ⟨by decide, handled_low _ _⟩,
    meets_in ⟨rfl, rfl, rfl⟩ rfl (by decide) (by decide) ⟨by decide, handled_low _ _⟩⟩ ?_)

theorem witness_TileInstructions : ∀ i ∈ [.tstat always 2 0, .tstat always 2 15, .tcvt always true .rtz 6 2, .tcvt always false .rne 6 2],
    RunsAt tileTable (st false) (wp false) i := by
  repeat (first | exact noMore | refine more (meets false rfl (by decide) (by decide) (rfl : untouched (wp false) [_])) ?_
                | refine more (meets false rfl (by decide) (by decide) ⟨by decide, rfl⟩) ?_)
theorem witness_TileInstructions_fills : ∀ i ∈ [.tzero always 2, .tzero always 0, .tfree always 0, .tfree always 1, .tmovGet always 2 0 4 false,
    .tmovSet always 2 2 4 false false], RunsAt tileTable (st false) (wp false) i := by
  refine more (meets false rfl (by decide) (by decide) ⟨by decide, ⟨rfl, by decide⟩, rfl, .inl rfl⟩) ?_
  refine more (meets false rfl (by decide) (by decide) ⟨by decide, ⟨rfl, by decide⟩, rfl, .inr ⟨rfl, rfl⟩⟩) ?_
  refine more (meets false rfl (by decide) (by decide) ⟨by decide, rfl, rfl, .inr rfl⟩) ?_
  refine more (meets false rfl (by decide) (by decide) ⟨by decide, rfl, rfl, .inr rfl⟩) ?_
  refine more (meets false rfl (by decide) (by decide) ⟨by decide, ⟨rfl, by decide⟩, ⟨rfl, rfl, by decide⟩, ?_⟩) ?_
  · show ∀ e ∈ actors iss (wp false) (some always), _
    decide
  refine more (meets false rfl (by decide) (by decide) ⟨by decide, ⟨rfl, by decide⟩, ⟨rfl, .inl rfl⟩, ?_⟩) noMore
  show ∀ e ∈ actors iss (wp false) (some always), _
  decide
theorem witness_TileInstructions_tcfg : RunsAt tileTable (st false) (wp false) (.tcfg always 2 4 false) ∧
    RunsAt tileTable (st false) (wp false) (.tcfg always 15 4 false) :=
  ⟨meets false rfl (by decide) (by decide) ⟨by decide, rfl, by decide, by decide, by decide, by decide, .inl rfl⟩,
   meets false rfl (by decide) (by decide) ⟨by decide, rfl, by decide, by decide, by decide, by decide, .inl rfl⟩⟩
/-- t5 is not configured, t4 is draining; s5 is a control word without columns, s23 one of slot 0 whose rows are 24 and whose columns are 0. -/
theorem witness_TileInstructions_traps : ∀ i ∈ [.tzero always 5, .tzero always 4, .tfree always 5, .tmovGet always 2 2 4 false,
    .tmovSet always 2 4 4 false false, .tcfg always 2 5 false, .tcfg always 2 23 false, .tcfg always 4 4 false],
    RunsAt tileTrapTable (st false) (wp false) i := by
  repeat (first | exact noMore | refine more (meets false rfl (by decide) (by decide) ⟨⟨rfl, by decide⟩, handled _⟩) ?_
                | refine more (meets false rfl (by decide) (by decide) ⟨(rfl : untouched (wp false) [_]), handled _⟩) ?_)

/-- v9 holds 0x1000, beyond the words of t6. -/
theorem witness_TileInstructions_shape : ∀ i ∈ [.tmovGet always 2 6 9 false, .tmovSet always 2 6 9 false false],
    RunsAt tileShapeTable (st false) (wp false) i := by
  refine more (meets false rfl (by decide) (by decide) ⟨⟨rfl, rfl, .inl rfl, by decide, ?_⟩, handled _⟩)
    (more (meets false rfl (by decide) (by decide) ⟨⟨rfl, rfl, by decide, by decide, ?_⟩, handled _⟩) noMore)
  all_goals (show ∀ e ∈ actors iss (wp false) (some always), _; decide)
/-- Each check of TCVT in turn: a slot that is not usable, of either; no configuration, of either; other rows; an
empty and a draining source; a draining destination. -/
theorem witness_TileInstructions_tcvt : ∀ i ∈ [.tcvt always false .rne 9 5, .tcvt always false .rne 5 9,
    .tcvt always false .rne 5 2, .tcvt always false .rne 0 5, .tcvt always false .rne 0 8, .tcvt always false .rne 2 4,
    .tcvt always false .rne 4 2, .tcvt always true .rtz 0 4], RunsAt tileShapeTable (st false) (wp false) i := by
  repeat (first | exact noMore | refine more (meets false rfl (by decide) (by decide) ⟨(rfl : untouched (wp false) [_, _]), handled _⟩) ?_)

/-- The command's checks pass and its waits can be met together. -/
def starts (s : State) (w : Warp) (g : Guard) (i : Instr) : Bool :=
  match planned s iss w g i with
  | some (.ok p) => s.canStart (context iss w (some g)) p
  | _ => false
theorem meetsCommand {i : Instr} {sp : Reg} {ts : List Nat} (wf : fieldsOk i = true) (c : commandOf i = some (always, sp, ts))
    (h : starts (st false) (wp false) always i = true) (b : (st false).blockWaits (context iss (wp false) (some always)) sp = false)
    (f : (st false).onHeld (context iss (wp false) (some always)) i ts = false) (u : ({ src := [sop sp] } : Uses).waits (wp false) (fib false) = false) : RunsAt commandTable (st false) (wp false) i := by
  unfold starts at h
  split at h
  · rename_i p hp
    simp only [RunsAt, commandTable, c, Option.bind_some, hp]
    exact ⟨_, rfl, wf, ready false _ _ u, by decide, compared _, ⟨b, f⟩, h⟩
  · cases h
def commandInstrs : List Instr :=
  [.mma always 21 6 7 1 true true false, .epi always 22 0 .memory .relu 0 false false false false .stream,
   .epi always 23 2 .tile .none 0 false false false false .normal, .copy always 30 2 .memory .tile .strided 2 .normal,
   .copy always 31 0 .tile .memory .strided 2 .normal]
theorem witness_CommandsIssue : ∀ i ∈ commandInstrs, RunsAt commandTable (st false) (wp false) i := by
  repeat (first | exact noMore | refine more (meetsCommand (by decide) rfl (by decide +kernel) (by decide) (by decide) (by decide)) ?_)

theorem witness_NameInstructions : ∀ i ∈ [.namePub always 0 32 false, .nameGet always 2 32 false, .nameRetire always 32 false,
    .nameDrop always 2], RunsAt nameTable (st false) (wp false) i := by
  refine more (meets false rfl (by decide) (by decide) ⟨by decide, compared _, ⟨rfl, by decide⟩, rfl, rfl, by decide⟩) ?_
  refine more (meets false rfl (by decide) (by decide) ⟨by decide, compared _, ⟨rfl, by decide⟩, rfl, .inl rfl⟩) ?_
  exact more (meets false rfl (by decide) (by decide) ⟨by decide, compared _⟩)
    (more (meets false rfl (by decide) (by decide) ⟨by decide, compared _, rfl⟩) noMore)
/-- t5 is not configured, t2 is empty, t4 is draining, and the slot of t9 is not usable. -/
theorem witness_NameInstructions_traps : ∀ i ∈ [.namePub always 5 32 false, .namePub always 2 32 false, .namePub always 4 32 false,
    .namePub always 9 32 false, .nameGet always 5 32 false, .nameGet always 4 32 false, .nameGet always 9 32 false],
    RunsAt nameTrapTable (st false) (wp false) i := by
  repeat (first | exact noMore | refine more (meets false rfl (by decide) (by decide) ⟨⟨rfl, by decide⟩, handled _⟩) ?_
                | refine more (meets false rfl (by decide) (by decide) ⟨(rfl : untouched (wp false) [_]), handled _⟩) ?_)
/-- A command whose checks fail traps: s4 is no multiple of 64, and s24 lies beyond the scratch. -/
theorem witness_CommandsIssue_traps : ∀ i ∈ [.mma always 4 6 7 1 true true false, .epi always 24 0 .memory .none 0 false false false false .normal,
    .copy always 4 2 .memory .tile .strided 2 .normal], RunsAt commandTable (st false) (wp false) i := by
  have one (i : Instr) (sp : Reg) (ts : List Nat) (wf : fieldsOk i = true) (c : commandOf i = some (always, sp, ts))
      (h : (match planned (st false) iss (wp false) always i with
        | some (.error _) => true
        | _ => false) = true) (b : (st false).blockWaits (context iss (wp false) (some always)) sp = false)
      (f : (st false).onHeld (context iss (wp false) (some always)) i ts = false) (u : ({ src := [sop sp] } : Uses).waits (wp false) (fib false) = false) : RunsAt commandTable (st false) (wp false) i := by
    split at h
    · rename_i t ht
      simp only [RunsAt, commandTable, c, Option.bind_some, ht]
      exact ⟨_, rfl, wf, ready false _ _ u, ⟨by decide, b, f⟩, handled _⟩
    · cases h
  exact more (one _ 4 _ (by decide) rfl (by decide) (by decide) (by decide) (by decide))
    (more (one _ 24 _ (by decide) rfl (by decide) (by decide) (by decide) (by decide))
    (more (one _ 4 _ (by decide) rfl (by decide) (by decide) (by decide) (by decide)) noMore))

/-- The guard p0, which holds in no fibre of the warp. -/
def never : Guard := ⟨false, 0⟩
def idleInstrs : List Instr :=
  [.barArrive never ⟨.core, 0⟩, .barWait never ⟨.core, 0⟩, .barSync never ⟨.core, 0⟩, .barInit never 2 ⟨.core, 0⟩, .barDrop never ⟨.core, 0⟩,
   .barTest never 0 ⟨.core, 0⟩, .deqPush never 2 4 false, .deqPop never 2 4, .regGrow never 8, .regShrink never 8, .step never 2 4 false,
   .pwrHint never .memoryBound, .tcfg never 2 4 false, .tzero never 2, .tfree never 2, .tmovGet never 2 0 4 false,
   .tmovSet never 2 2 4 false false, .tcvt never false .rne 6 2, .mma never 21 6 7 1 true true false,
   .epi never 22 0 .memory .relu 0 false false false false .stream, .copy never 30 2 .memory .tile .strided 2 .normal,
   .namePub never 0 32 false, .nameGet never 2 32 false, .nameRetire never 32 false, .nameDrop never 2, .icinv never .core 0 10 false false,
   .cctl never .l1inv 0 10 false false, .prefetch never false 0 10 false false, .fence never .domain, .launch never 4 2 10 false false,
   .atom never 4 ⟨2, 10, false, false, .package, false⟩ 6 false .add .s32,
   .atomcas never 4 ⟨2, 10, false, false, .package, false⟩ 6 false 8 false .b32 0,
   .red never ⟨2, 10, false, false, .core, false⟩ 6 false .add .s32]
theorem witness_FalseGuardsChangeNothing : Ready (st false) iss (wp false) (some never) {} ∧ acting iss (wp false) (some never) = [] ∧
    ∀ i ∈ idleInstrs, idleGuard i = some never := ⟨ready false _ _ rfl, by decide, by decide⟩

/-- A warp whose fibres' v4 is empty. -/
def fibE : Fibre := { fib false with entries := [(68, ⟨7, false⟩), (72, ⟨3, true⟩)] }
def wpE : Warp := { wp false with slots := [(0, fibE), (1, fibE)] }
def stE : State := { st false with warps := [(key, wpE)] }
theorem fibres_areE (l : Lane) (f : Fibre) (e : wpE.fibre? l = some f) : f = fibE := by
  match l with
  | 0 | 1 => exact ((Option.some.injEq ..).mp e).symm
  | n + 2 => simp [Warp.fibre?, wpE, nget?] at e
theorem calmE (g : Option Guard) : Calm stE iss wpE g where
  issue := rfl
  warp := rfl
  ascending := by decide
  fibres := by decide
  free := rfl
  settled := rfl
  unarmed := rfl
  calm l f _ hf := fibres_areE l f hf ▸ rfl
/-- va is v4, with its operand bit. -/
def fbit : FmtA := ⟨always, 2, 4, 6, true, false⟩
def ubit : FmtU := ⟨always, 2, 4, true⟩
theorem witness_EmptyOperandsTrap : ∀ i ∈ [.iadd fbit, .idot4S8 fbit, .bfxS32 fbit, .iadd64 ⟨always, 2, 6, 4, false, true⟩, .imad fa3 4 true .wideS,
    .icmp ⟨always, 0, .eq, 6, 4, false, true⟩, .pick fbit, .fabs ubit, .faddB2 fbit, .fmulH2 fbit, .cvt always 2 4 true .f32 .s32,
    .cvtpk always 2 4 true .f16], ∃ m, registerTable i = some m ∧ Calm stE iss wpE m.1.guard ∧ Handled stE iss wpE m.1.guard ∧
      (∃ l f, l ∈ acting iss wpE m.1.guard ∧ wpE.fibre? l = some f ∧ (firstEmpty wpE f m.1.uses.src).isSome = true) ∧
      ∀ l f, l ∈ acting iss wpE m.1.guard → wpE.fibre? l = some f → (firstEmpty wpE f m.1.uses.src).isSome = true := by
  have one (m : Meaning) (a : 0 ∈ acting iss wpE m.guard) (e : (firstEmpty wpE fibE m.uses.src).isSome = true) : Calm stE iss wpE m.guard ∧
      Handled stE iss wpE m.guard ∧
      (∃ l f, l ∈ acting iss wpE m.guard ∧ wpE.fibre? l = some f ∧ (firstEmpty wpE f m.uses.src).isSome = true) ∧
      ∀ l f, l ∈ acting iss wpE m.guard → wpE.fibre? l = some f → (firstEmpty wpE f m.uses.src).isSome = true :=
    ⟨calmE _, ⟨⟨la, rfl, rfl⟩, fun l f _ hf => fibres_areE l f hf ▸ rfl⟩, ⟨0, fibE, a, rfl, e⟩, fun l f _ hf => fibres_areE l f hf ▸ e⟩
  repeat (first | exact noMore | refine more ⟨_, rfl, one _ (by decide) (by decide)⟩ ?_)
/-- Fibre 0 lacks v4, fibre 1 has it, or has no v6 besides: the instruction completes in fibre 1, or fibre 1 waits. -/
def fibW : Fibre := { fib false with entries := [(70, ⟨7, false⟩)] }
def wpMix (f : Fibre) : Warp := { wp false with slots := [(0, fibE), (1, f)] }
theorem witness_EmptyOperandsTrap_some (f : Fibre) (hf : f = fib false ∨ f = fibW) (w : Warp) (hw : w = wpMix f) (s : State)
    (hs : s = { st false with warps := [(key, w)], level := 1 }) :
    ∃ m, registerTable (.iadd fbit) = some m ∧ Calm s iss w m.1.guard ∧ Handled s iss w m.1.guard ∧ (m.2 = true → s.level = 2) ∧
      firstEmpty w fibE m.1.uses.src = some (0, vop 4 true) ∧ firstEmpty w f m.1.uses.src = none ∧
      m.1.uses.waits w f = decide (f = fibW) ∧ acting iss w m.1.guard = [0, 1] := by
  subst hw
  have only (l : Lane) (g : Fibre) (e : (wpMix f).fibre? l = some g) : g = fibE ∨ g = f := by
    match l with
    | 0 => exact .inl ((Option.some.injEq ..).mp e).symm
    | 1 => exact .inr ((Option.some.injEq ..).mp e).symm
    | n + 2 => simp [Warp.fibre?, wpMix, nget?] at e
  refine ⟨_, rfl, ?_, ⟨⟨la, by subst hs; rfl, rfl⟩, fun l g _ e => ?_⟩, (fun h => nomatch h), ?_⟩
  · exact { issue := by subst hs; rfl, warp := by subst hs; rfl, ascending := by decide, fibres := by simp [iss, wpMix, Warp.fibre?, nget?], free := rfl
            settled := rfl, unarmed := by subst hs; rfl
            calm := fun l g _ e => by rcases only l g e with rfl | rfl <;> rcases hf with rfl | rfl <;> rfl }
  · rcases only l g e with rfl | rfl <;> rcases hf with rfl | rfl <;> rfl
  · rcases hf with rfl | rfl <;> exact ⟨by decide, by decide, by decide, by decide⟩
/-- v4 has no operand bit here, or is the destination. -/
theorem witness_OperandsWait : ∀ i ∈ [.iadd fa3, .idot4S8 fa3, .bfi ⟨always, 4, 6, 6, false, false⟩, .mov ⟨always, 4, 6, true⟩, .isub64 fa3,
    .movi always 4 5, .pwrite always 4 6 false true, .ffma ⟨always, 4, 6, 6, true, true⟩, .fmaxB2 fa3, .cvtx always 4 6 true .s64 .f32 .rne false false 0],
    ∃ m, registerTable i = some m ∧ Calm stE iss wpE m.1.guard ∧
      (∀ l f, l ∈ acting iss wpE m.1.guard → wpE.fibre? l = some f → firstEmpty wpE f m.1.uses.src = none) ∧
      ∃ l f, l ∈ acting iss wpE m.1.guard ∧ wpE.fibre? l = some f ∧ m.1.uses.waits wpE f = true := by
  have one (m : Meaning) (a : 0 ∈ acting iss wpE m.guard) (e : firstEmpty wpE fibE m.uses.src = none) (w : m.uses.waits wpE fibE = true) :
      Calm stE iss wpE m.guard ∧
      (∀ l f, l ∈ acting iss wpE m.guard → wpE.fibre? l = some f → firstEmpty wpE f m.uses.src = none) ∧
      ∃ l f, l ∈ acting iss wpE m.guard ∧ wpE.fibre? l = some f ∧ m.uses.waits wpE f = true :=
    ⟨calmE _, fun l f _ hf => fibres_areE l f hf ▸ e, 0, fibE, a, rfl, w⟩
  repeat (first | exact noMore | refine more ⟨_, rfl, one _ (by decide) (by decide) (by decide)⟩ ?_)
/-- Of an MMA whose block's offset is no multiple of 64 the first check fails; of the MMA above none does. -/
theorem witness_CommandsIssue_checks : (∃ l c after, issueChecks (st false) iss (wp false) (.mma always 4 6 7 1 true true false) = some (always, l) ∧
      l = [] ++ c :: after ∧ c.fails) ∧
    ∃ l, issueChecks (st false) iss (wp false) (.mma always 21 6 7 1 true true false) = some (always, l) ∧ ∀ c ∈ l, ¬ c.fails := by
  refine ⟨⟨_, _, _, rfl, rfl, show ((wp false).sval 4).toNat % 64 ≠ 0 by decide⟩, _, rfl, ?_⟩
  dsimp only [mmaChecks, blockChecks, slotChecks, tileCheck, List.cons_append, List.nil_append]
  refine eachOf (by decide) (eachOf (by decide) (eachOf ?_ (eachOf (by decide +kernel) (eachOf (by decide +kernel) (eachOf (by decide +kernel)
    (eachOf (by decide +kernel) (eachOf (by decide +kernel) (eachOf (by decide +kernel) (eachOf (by decide +kernel) (eachOf (by decide +kernel) (eachOf (by decide +kernel)
    (eachOf ?_ (fun _ h => nomatch h)))))))))))))
  · decide +kernel
  · rintro ⟨gr, hg, hf⟩
    cases hg
    revert hf
    decide +kernel
/-! ## Witnesses: the steps of other agents -/

/-- A state and arguments that meet the condition of a table's entry. -/
def HappensAt (table : State → Instr → Option Event) (s : State) (i : Instr) : Prop := ∃ e, table s i = some e ∧ e.need

/-- The warp with an item outstanding at the first of its fibres. -/
def pend (kind : PendKind) : Pend := { num := 4, lane := 0, kind := kind, pc := 0x102, hdr := 0x100 }
def wpP (p : Pend) : Warp := { wp false with pend := [p] }
def stP (p : Pend) : State := { st false with issue := none, warps := [(key, wpP p)] }
def regsPend : Pend := pend (.regs [(66, 5)])
def loadPend : Pend := pend (.load (.mem 6553600) 4 .zext [66])
def storePend : Pend := pend (.store (.mem 6553600) [1, 2, 3, 4])
theorem witness_AccessesComplete_regs : HappensAt (fun s => accessEvents s key (wpP regsPend) regsPend) (stP regsPend) (.longLatencyWriteback 9 0 4 0) :=
  ⟨_, rfl, rfl, rfl, rfl, by decide, rfl, by decide, by decide⟩
theorem witness_AccessesComplete_load : HappensAt (fun s => accessEvents s key (wpP loadPend) loadPend) (stP loadPend) (.longLatencyWriteback 9 0 4 0) :=
  ⟨_, rfl, ⟨rfl, rfl, rfl, by decide, rfl, by decide, by decide⟩, by decide, ⟨⟨(fun e he => nomatch he), fun e he => nomatch he⟩, by decide⟩, rfl⟩
theorem witness_AccessesComplete_store : HappensAt (fun s => accessEvents s key (wpP storePend) storePend) (stP storePend) (.storeGateRelease 9 0 4 0) :=
  ⟨_, rfl, ⟨rfl, rfl, rfl, by decide, rfl, by decide, by decide⟩, by decide, by decide, by decide, ⟨(fun e he => nomatch he), fun e he => nomatch he⟩⟩
/-- A reduction of the warp's own word rests in the core, and the load meets it. -/
def resting : CombEntry := { pa := 6553600, va := 0x10000, op := .add, ty := .s32, scope := .package, halves := 3, x := 5, contributors := [key] }
def stResting : State := { stP loadPend with cores := [(3, { comb := [resting] })] }
theorem witness_AccessesComplete_load_resting : HappensAt (fun s => accessEvents s key (wpP loadPend) loadPend) stResting (.longLatencyWriteback 9 0 4 0) :=
  ⟨_, rfl, ⟨rfl, rfl, rfl, by decide, rfl, by decide, by decide⟩, by decide, by decide, rfl, by decide, rfl, rfl, by decide, fun e he => nomatch he⟩
/-- A load and a store of the register ELID. -/
def ctlLoad : Pend := pend (.load (.mem (0x70000000000 + 0x400)) 4 .zext [66])
def ctlStore : Pend := pend (.store (.mem (0x70000000000 + 0x400)) [1, 2, 3, 4])
theorem witness_AccessesComplete_control : HappensAt (fun s => accessEvents s key (wpP ctlLoad) ctlLoad) (stP ctlLoad) (.longLatencyWriteback 9 0 4 0) ∧
    HappensAt (fun s => accessEvents s key (wpP ctlStore) ctlStore) (stP ctlStore) (.storeGateRelease 9 0 4 0) :=
  ⟨⟨_, rfl, ⟨rfl, rfl, rfl, by decide, rfl, by decide, by decide⟩, rfl, by decide, by decide⟩, ⟨_, rfl, ⟨rfl, rfl, rfl, by decide, rfl, by decide, by decide⟩, by decide, by decide, by decide⟩⟩
/-- Outside deterministic mode: an atomic that returns its old value, a compare and swap, and a reduction of 8 bytes. -/
def unit (n : Nat) (u : Update) : AtomUnit := { lane := 0, part := 0, loc := .mem 6553600, size := n, upd := u }
def addPend : Pend := pend (.atom [unit 4 (.op .add .n32 3)] [(0, [66])] none)
def casPend : Pend := pend (.atom [unit 8 (.cas .b64 0 9)] [(0, [66, 67])] (some 2))
def redPend8 : Pend := pend (.atom [unit 8 (.op .max .s64 7)] [] none)
/-- Nothing in the state touches the bytes of package memory. -/
theorem freeMem (p : Pend) (pa n : Nat) (own : (stP p).isOwnMem (.mem pa) = true) (clean : (stP p).poisoned (localOf pa) n = false) :
    free (stP p) key (.mem pa) n := ⟨own, ⟨(fun _ h => nomatch h), fun _ h => nomatch h⟩, clean⟩
theorem witness_AccessesComplete_units : HappensAt (fun s => accessEvents s key (wpP addPend) addPend) (stP addPend) (.storeGateRelease 9 0 4 0) ∧
    HappensAt (fun s => accessEvents s key (wpP casPend) casPend) (stP casPend) (.storeGateRelease 9 0 4 0) ∧
    HappensAt (fun s => accessEvents s key (wpP redPend8) redPend8) (stP redPend8) (.storeGateRelease 9 0 4 0) :=
  ⟨⟨_, rfl, ⟨rfl, rfl, rfl, by decide, rfl, by decide, by decide⟩, freeMem _ _ _ (by decide) (by decide), .inl rfl, by decide, rfl, (fun _ => rfl),
      (fun h => absurd rfl h), fun _ => rfl⟩,
   ⟨_, rfl, ⟨rfl, rfl, rfl, by decide, rfl, by decide, by decide⟩, freeMem _ _ _ (by decide) (by decide), .inl rfl, by decide, rfl,
      (fun h => nomatch h), (fun _ => ⟨_, _, _, rfl⟩), fun h => nomatch h⟩,
   ⟨_, rfl, ⟨rfl, rfl, rfl, by decide, rfl, by decide, by decide⟩, freeMem _ _ _ (by decide) (by decide), .inl rfl, by decide, rfl, (fun _ => rfl),
      (fun h => absurd rfl h), fun _ => rfl⟩⟩
/-- Scratch: a load and a store of a word, and an atomic. -/
def scratchAt : Loc := .scr ⟨9, 0⟩ 64
def ldsPend : Pend := pend (.load scratchAt 4 .zext [66])
def stsPend : Pend := pend (.store scratchAt [1, 2, 3, 4])
def scratchAdd : Pend := pend (.atom [{ unit 4 (.op .add .n32 3) with loc := scratchAt }] [(0, [66])] none)
theorem witness_AccessesComplete_scratch : HappensAt (fun s => accessEvents s key (wpP ldsPend) ldsPend) (stP ldsPend) (.longLatencyWriteback 9 0 4 0) ∧
    HappensAt (fun s => accessEvents s key (wpP stsPend) stsPend) (stP stsPend) (.storeGateRelease 9 0 4 0) ∧
    HappensAt (fun s => accessEvents s key (wpP scratchAdd) scratchAdd) (stP scratchAdd) (.storeGateRelease 9 0 4 0) :=
  ⟨⟨_, rfl, rfl, rfl, rfl, by decide, rfl, by decide, by decide⟩,
   ⟨_, rfl, ⟨rfl, rfl, rfl, by decide, rfl, by decide, by decide⟩, show (Option.isSome _) = true from rfl⟩,
   ⟨_, rfl, ⟨rfl, rfl, rfl, by decide, rfl, by decide, by decide⟩, show (Option.isSome _) = true from rfl, .inl rfl, by decide, rfl, (fun _ => rfl),
      (fun h => absurd rfl h), fun _ => rfl⟩⟩
/-- The halves of a pair in two words: the first to be performed leaves its value with the other, and the second writes the pair. -/
def half (n : Nat) (o : Option Nat) : AtomUnit :=
  { unit 2 (.op .add .h2 3) with part := n, loc := .mem (6553602 + 2 * n), straddles := true, other := o }
def halfPend (n : Nat) (o : Option Nat) : Pend := pend (.atom [half n o] [(0, [66])] none)
theorem witness_AccessesComplete_halves : HappensAt (fun s => accessEvents s key (wpP (halfPend 0 none)) (halfPend 0 none)) (stP (halfPend 0 none)) (.storeGateRelease 9 0 4 0) ∧
    HappensAt (fun s => accessEvents s key (wpP (halfPend 1 (some 7))) (halfPend 1 (some 7))) (stP (halfPend 1 (some 7))) (.storeGateRelease 9 0 4 0) ∧
    oldValue (half 0 none) 5 = none ∧ oldValue (half 1 (some 7)) 5 = some 0x50007 :=
  ⟨⟨_, rfl, ⟨rfl, rfl, rfl, by decide, rfl, by decide, by decide⟩, freeMem _ _ _ (by decide) (by decide), .inl rfl, by decide, rfl, (fun _ => rfl),
      (fun h => absurd rfl h), fun h => nomatch h⟩,
   ⟨_, rfl, ⟨rfl, rfl, rfl, by decide, rfl, by decide, by decide⟩, freeMem _ _ _ (by decide) (by decide), .inl rfl, by decide, rfl, (fun _ => rfl),
      (fun h => absurd rfl h), fun h => nomatch h⟩, rfl, rfl⟩
/-- LAUNCH of a record at 6553600, and the arrival at core barrier 1. -/
def launchPend : Pend := pend (.launch (.mem 6553600) [66])
def arrivePend : Pend := { pend (.arrive ⟨.core, 1⟩ 3) with lane := 64 }
theorem witness_AccessesComplete_launch : HappensAt (fun s => accessEvents s key (wpP launchPend) launchPend) (stP launchPend) (.longLatencyWriteback 9 0 4 0) ∧
    HappensAt (fun s => accessEvents s key (wpP arrivePend) arrivePend) (stP arrivePend) (.storeGateRelease 9 0 4 64) :=
  ⟨⟨_, rfl, ⟨rfl, rfl, rfl, by decide, rfl, by decide, by decide⟩, ⟨by decide, rfl, by decide⟩, by decide, ⟨⟨(fun _ h => nomatch h), fun _ h => nomatch h⟩, by decide⟩, rfl⟩,
   ⟨_, rfl, ⟨rfl, rfl, rfl, by decide, rfl, by decide, by decide, rfl, by decide⟩, by decide, by decide⟩⟩
/-- Effects that the gate holds: on tiles, the deque, names, a hint and barrier settings. -/
def heldPend (e : Held) : Pend := { pend (.held e) with lane := 64 }
theorem movable (e : Held) : Movable (stP (heldPend e)) key (wpP (heldPend e)) (heldPend e) Pend.isGated (gateTurn (wpP (heldPend e)) (heldPend e)) :=
  ⟨rfl, rfl, rfl, List.Mem.head _, rfl, rfl, rfl, rfl, fun q h => by simp [itemsBefore, wpP] at h⟩
theorem witness_AccessesComplete_held : ∀ e ∈ [.tile 2 (.configure 0x1010), .tile 0 .zero, .tile 1 .free, .tile 0 (.words [(1, 5)]),
    .name (.pub 0 ⟨1, 2, 3⟩), .name (.get 2 ⟨1, 2, 3⟩ 40 0), .name (.retire ⟨1, 2, 3⟩), .name (.drop 3), .hint .memoryBound, .hint .automatic,
    .setE ⟨.core, 1⟩ 2, .dropOut ⟨.core, 1⟩],
    HappensAt (fun s => accessEvents s key (wpP (heldPend e)) (heldPend e)) (stP (heldPend e)) (.storeGateRelease 9 0 4 64) := by
  intro e h
  simp only [List.mem_cons, List.not_mem_nil, or_false] at h
  rcases h with rfl | rfl | rfl | rfl | rfl | rfl | rfl | rfl | rfl | rfl | rfl | rfl <;> exact ⟨_, rfl, movable _⟩
theorem witness_AccessesComplete_deque : ∀ a ∈ [DequeAct.push, .pop, .steal], let p := heldPend (.deque a [(0, 5, [66]), (1, 6, [66])])
    HappensAt (fun s => accessEvents s key (wpP p) p) (stP p) (.storeGateRelease 9 0 4 64) := by
  intro a h
  simp only [List.mem_cons, List.not_mem_nil, or_false] at h
  rcases h with rfl | rfl | rfl <;> exact ⟨_, rfl, movable _, by decide, by decide, fun _ => ⟨by decide, rfl, by decide⟩⟩
/-- A reduction that goes to rest in the buffer, and a floating one of a deterministic launch, which is held. -/
def redPend (ty : AtomType) : Pend := pend (.red (.mem 6553600) 3 .add ty .package 3)
def stDetRed : State := { stP (redPend .f32) with launches := [(9, { la with record := { la.record with flags := 0x41 } })] }
theorem witness_AccessesComplete_reductions : HappensAt (fun s => accessEvents s key (wpP (redPend .s32)) (redPend .s32)) (stP (redPend .s32)) (.storeGateRelease 9 0 4 0) ∧
    HappensAt (fun s => accessEvents s key (wpP (redPend .f32)) (redPend .f32)) stDetRed (.storeGateRelease 9 0 4 0) :=
  ⟨⟨_, rfl, ⟨rfl, rfl, rfl, by decide, rfl, by decide, by decide⟩, ⟨(fun e he => nomatch he), fun e he => nomatch he⟩, fun _ => ⟨by decide, fun e he => nomatch he⟩⟩,
   ⟨_, rfl, ⟨rfl, rfl, rfl, by decide, rfl, by decide, by decide⟩, ⟨(fun e he => nomatch he), fun e he => nomatch he⟩, fun _ => ⟨by decide, fun e he => nomatch he⟩⟩⟩
/-- A deterministic atomic that every core's horizon has passed. -/
def atomPend : Pend :=
  { pend (.atom [{ lane := 0, part := 0, loc := .mem 6553600, size := 4, upd := .op .add .n32 3 }] [(0, [66])] none) with stage := .queued }
def detLaunch : Launch := { la with record := { la.record with flags := 0x41 }, placed := 1 }
def stDet : State :=
  { stP atomPend with launches := [(9, detLaunch)], cores := [(3, { horizon := [(9, (1, 0, 0))] })] }
theorem witness_AccessesComplete_atomic : HappensAt (fun s => accessEvents s key (wpP atomPend) atomPend) stDet (.detAtomicApply 9) :=
  ⟨_, rfl, rfl, rfl, rfl, by decide, by decide, by decide, rfl, by decide, rfl, rfl, .inl rfl,
    ⟨by decide, ⟨(fun e he => nomatch he), fun e he => nomatch he⟩, by decide⟩, detLaunch, rfl, by decide⟩

/-- The warp behind an unresolved FENCE that a recall marked line 128 of. -/
def wpF : Warp := { wp false with issues := 7, spec := some { num := 5, scope := .package, marks := [128] }
                                  undo := [{ num := 5, before := (wp false).toWarpArch }], pend := [pend .cacheOp] }
def stF : State := { st false with issue := none, warps := [(key, { wpF with pend := [] })] }
def wpI : Warp := { wp false with waiting := .icinv .package [1] }
def stI : State := { st false with issue := none, warps := [(key, wpI)], cores := [(3, { code := [{ root := 0x2000, va := 0x10004, word := 5 }] })] }
theorem witness_OrderingEvents : HappensAt orderEvents stF (.fenceResolve 9 0) ∧ HappensAt orderEvents stF (.speculativeRollback 9 0 128) ∧
    HappensAt orderEvents stI (.icinvComplete 9 0) ∧ HappensAt orderEvents stI (.leaseRecall 128 3) :=
  ⟨⟨_, rfl, _, rfl, by decide, by decide⟩, ⟨_, rfl, _, rfl, by decide, by decide, by decide⟩, ⟨_, rfl, _, _, rfl, rfl, by decide, by decide, by decide⟩,
   ⟨_, rfl, trivial⟩⟩
/-- A store of the package's own memory behind the FENCE, which resolution performs. -/
def fencedStore : Pend := { storePend with num := 6, spec := true }
def wpFs : Warp := { wpF with pend := [fencedStore] }
def stFs : State := { st false with issue := none, warps := [(key, wpFs)] }
theorem witness_OrderingEvents_store : HappensAt orderEvents stFs (.fenceResolve 9 0) :=
  ⟨_, rfl, ⟨_, rfl, by decide, by decide, by decide⟩, ⟨rfl, rfl, rfl, by decide, rfl, by decide, by decide⟩, by decide, by decide, by decide,
    ⟨(fun e he => nomatch he), fun e he => nomatch he⟩, fun q i n => absurd (List.mem_singleton.mp i) n⟩
/-- A domain launch of two packages whose root is package `r`. -/
def stDomain (r : Nat) : State :=
  { st false with launches := [(9, { la with record := { la.record with flags := 0x64 }, domainPackages := 2, domainRoot := r, domainOthers := 3 })]
                  bars := [(⟨9, .domain, 0, 1⟩, { e := 4, count := 2, top := 6 })] }
/-- An arrival, a drop, a drop to nobody and an init at the root; and the completion elsewhere. -/
theorem witness_OrderingEvents_domain : HappensAt domainEvents (stDomain 0) (.domainBarrierArrival 9 1 0 6) ∧
    HappensAt domainEvents (stDomain 0) (.domainBarrierArrival 9 1 1 0) ∧ HappensAt domainEvents (stDomain 0) (.domainBarrierArrival 9 1 2 3) ∧
    HappensAt domainEvents (stDomain 0) (.domainBarrierArrival 9 1 2 0) ∧ HappensAt domainEvents (stDomain 7) (.domainBarrierCompletion 9 1 4) :=
  ⟨⟨_, rfl, ⟨_, rfl, rfl, by decide⟩, .inl (by decide)⟩, ⟨_, rfl, ⟨_, rfl, rfl, by decide⟩, .inl (by decide)⟩,
   ⟨_, rfl, ⟨_, rfl, rfl, by decide⟩, .inl (by decide)⟩, ⟨_, rfl, ⟨_, rfl, rfl, by decide⟩, .inr ⟨by decide, rfl⟩⟩,
   ⟨_, rfl, _, rfl, by decide, by decide⟩⟩

/-- A record of 1 group and 1 warp, and a host queue of 2 records at 0x10000 whose first holds it. -/
def rec12 : LaunchRec := { la.record with lid := 12, scratch := 0, tiles := 0, accs := 0, fmt := [0, 0, 0, 0, 0, 0, 0, 0], pred := [0, 0, 0, 0] }
def bytesAt (a : Nat) (l : List Byte) : List Host.Cell :=
  ((List.range l.length).zip l).filterMap (fun e => if e.2 = 0 then none else some (a + e.1, e.2))
def ring : LaunchQueue := { baseLo := 0x10000, ctl := 0x21, prod := 1, rootLo := 0x2000 }
def stQueue (mem : List Host.Cell) : State := { State.reset with level := 2, mem := mem, front := { queues := [(0, ring)] } }
theorem witness_FrontEndEvents_refused : HappensAt frontEvents (stQueue []) (.launchRecordRead 0 0) :=
  ⟨_, rfl, by decide, by decide, rfl, rfl, rfl, by decide, by decide, .inr (by decide)⟩
/-- The record passes every check; in turn, three like it do not: one with a reserved byte, one of no group, one of two dies at S1. -/
theorem accepted12 (mem : List Host.Cell) : Accepted (stQueue mem) rec12 := by
  have room : ¬ ∀ c, c < 1536 → 16384 * ((stQueue mem).core c).banks 1 < 0 ∨ 16384 * ((stQueue mem).core c).banks 2 < 0 :=
    fun h => (h 0 (by decide)).elim (Nat.not_lt_zero _) (Nat.not_lt_zero _)
  exact eachOf (by decide) (eachOf (by decide) (eachOf (by decide) (eachOf (by decide) (eachOf (by decide) (eachOf (by decide)
    (eachOf (fun h => h.elim (by decide) (fun h => h.elim (by decide) room)) (eachOf (by decide) (eachOf (by decide)
    (eachOf (fun h => nomatch h.1) (eachOf (fun h => h.elim (by decide) (fun h => nomatch h))
    (eachOf (fun ⟨_, _, _, _, _, _, h, _⟩ => nomatch h) (eachOf (fun h => h.1 rfl) (fun _ h => nomatch h)))))))))))))
theorem witness_FrontEndEvents_reasons : Refused (stQueue []) { rec12 with reserved := 1 } 0x01 ∧
    Refused (stQueue []) { rec12 with gridx := 0 } 0x06 ∧ Refused { stQueue [] with level := 1 } { rec12 with mindies := 2, maxdies := 2 } 0x0D := by
  refine ⟨⟨[], _, _, rfl, by decide, fun _ h => nomatch h⟩, ⟨[_, _, _, _, _], _, _, rfl, by decide,
    eachOf (by decide) (eachOf (by decide) (eachOf (by decide) (eachOf (by decide) (eachOf (by decide) (fun _ h => nomatch h)))))⟩,
    ⟨[_, _, _, _, _, _, _, _, _, _, _, _], _, [], rfl, by decide, ?_⟩⟩
  have room : ¬ ∀ c, c < 384 → 16384 * (({ stQueue [] with level := 1 } : State).core c).banks 1 < 0 ∨ 16384 * (({ stQueue [] with level := 1 } : State).core c).banks 2 < 0 :=
    fun h => (h 0 (by decide)).elim (Nat.not_lt_zero _) (Nat.not_lt_zero _)
  exact eachOf (by decide) (eachOf (by decide) (eachOf (by decide) (eachOf (by decide) (eachOf (by decide) (eachOf (by decide)
    (eachOf (fun h => h.elim (by decide) (fun h => h.elim (by decide) room)) (eachOf (by decide) (eachOf (by decide)
    (eachOf (fun h => nomatch h.1) (eachOf (fun h => h.elim (by decide) (fun h => nomatch h))
    (eachOf (fun ⟨_, _, _, _, _, _, h, _⟩ => nomatch h) (fun _ h => nomatch h))))))))))))
theorem witness_FrontEndEvents_accepted : HappensAt frontEvents (stQueue (bytesAt 0x10000 rec12.bytes)) (.launchRecordRead 0 0) := by
  refine ⟨_, rfl, by decide, by decide, rfl, rfl, rfl, by decide +kernel, by decide +kernel, .inl ?_⟩
  have e : LaunchRec.parse (memBytes (stQueue (bytesAt 0x10000 rec12.bytes)).mem 0x10000 128) = rec12 := by decide +kernel
  show Accepted _ (LaunchRec.parse (memBytes _ 0x10000 128))
  rw [e]
  exact accepted12 _
theorem triv {table : State → Instr → Option Event} {s : State} {i : Instr} {post : State → Prop} (e : table s i = some { post := post }) :
    HappensAt table s i := ⟨_, e, trivial⟩
/-- QCTL: while enabled; to a disabled queue without EN; with a legal ring; and with a base that is no multiple of 128. -/
def stOff (base : Word) : State :=
  { st false with front := { queues := [(0, { ring with ctl := 1, baseLo := base })], detLid := 9, violLid := 9, detCnt := [(9, 4)], violCnt := [(9, 2)] }
                  clusters := [(0, { viol := 3, crMiss := 4 })] }
theorem witness_FrontEndEvents_registers : HappensAt frontEvents (stQueue []) (.qctlWrite 0 0x02) ∧ HappensAt frontEvents (stOff 0x10000) (.qctlWrite 0 0x05) ∧
    (HappensAt frontEvents (stOff 0x10000) (.qctlWrite 0 0x25) ∧ legalRing (stOff 0x10000) (stOff 0x10000 |>.queue 0) 0x25) ∧
    (HappensAt frontEvents (stOff 0x10040) (.qctlWrite 0 0x25) ∧ ¬ legalRing (stOff 0x10040) (stOff 0x10040 |>.queue 0) 0x25) ∧
    HappensAt frontEvents (stOff 0) (.detlidWrite 9) ∧ HappensAt frontEvents (stOff 0) (.viollidWrite 9) ∧
    HappensAt frontEvents (stOff 0) .detcntRead ∧ HappensAt frontEvents (stOff 0) .violcntRead ∧
    HappensAt frontEvents (stOff 0) (.admviolRead 0) ∧ HappensAt frontEvents (stOff 0) (.cretmissRead 0) :=
  ⟨triv rfl, triv rfl, ⟨triv rfl, by unfold legalRing; decide +kernel⟩, ⟨triv rfl, by unfold legalRing; decide +kernel⟩, triv rfl, triv rfl, triv rfl, triv rfl, triv rfl, triv rfl⟩

/-- Launch 12 stands accepted at the head of queue 0; and it runs, with no group placed. -/
def la12 (stage : LaunchStage) : Launch := { record := rec12, root := 0x2000, stage := stage, dies := [0] }
def stHead : State :=
  { st false with launches := [(12, la12 (.accepted 0))], groups := [], warps := [], front := { queues := [(0, { ring with head := some 12 })] } }
def stPlace : State := { stHead with launches := [(12, la12 .running)] }
theorem witness_FrontEndEvents_start : stHead.toStart.isSome = true ∧ ∀ x, stHead.toStart = some x → HappensAt frontEvents stHead .launchStart := by
  refine ⟨by decide +kernel, fun x hx => ?_⟩
  unfold HappensAt frontEvents
  dsimp only
  rw [hx]
  exact ⟨_, rfl, rfl⟩
/-- Launch 9 has finished, with its completion word in page 1. -/
def stDone : State :=
  { st false with launches := [], front := { finished := [{ lid := 9, root := 0x2000, done := 0x10008, state := 1, code := 0 }] }, groups := [], warps := [] }
theorem witness_FrontEndEvents_completion : HappensAt frontEvents stDone .completionWordWrite ∧
    stDone.translate 0 0x2000 0x10008 .write = .ok (0x10008 + 99 * 2 ^ 16) page :=
  ⟨⟨_, rfl, rfl, (fun c hc => nomatch hc), (fun r hr => nomatch hr)⟩, by decide⟩

/-- The end of a launch flushes the reduction that rests; poison holds it, its record is posted, and the word waits (R233, R334). -/
def stUnseen : State :=
  { stDone with cores := [(3, { comb := [⟨0x1000, 0x10000, .add, .n32, .package, 3, 1, [key], none⟩] })], poison := [(0x80, 0)] }
def afterUnseen : State := match exec .completionWordWrite stUnseen with
  | .next t => t
  | _ => stDone
theorem test_completion_held : afterUnseen.front.finished.length = 1 ∧
    (afterUnseen.core 3).comb.map (fun e => e.held.isSome) = [true] := by decide +kernel

/-- The widest of a list of sites is one of them. -/
theorem widest (w : List Nat → Nat) : ∀ (l : List (List Nat)) (b : List Nat), ∃ r ∈ b :: l,
    l.foldl (fun best site => match best with
      | none => some site
      | some b => if w b < w site then some site else some b) (some b) = some r
  | [], b => ⟨b, List.mem_singleton.mpr rfl, rfl⟩
  | a :: l, b => by
    by_cases h : w b < w a
    · obtain ⟨r, hr, e⟩ := widest w l a
      exact ⟨r, List.mem_cons_of_mem _ hr, by simpa [h] using e⟩
    · obtain ⟨r, hr, e⟩ := widest w l b
      refine ⟨r, ?_, by simpa [h] using e⟩
      cases hr with
      | head => exact List.mem_cons_self
      | tail _ hr => exact List.mem_cons_of_mem _ (List.mem_cons_of_mem _ hr)
theorem found (w : List Nat → Nat) (l : List (List Nat)) {a : List Nat} (h : a ∈ l) : ∃ r ∈ l,
    l.foldl (fun best site => match best with
      | none => some site
      | some b => if w b < w site then some site else some b) none = some r := by
  cases l with
  | nil => cases h
  | cons b l => exact widest w l b
/-- Group 0 of launch 12 fits core 0, so a site is found. -/
theorem stPlace_site : ∃ c, stPlace.siteFor (la12 .running) (la12 .running).placed (la12 .running).dies = some [c] := by
  unfold State.siteFor
  dsimp only
  generalize hl : List.flatMap _ (sortBy id _) = l
  have h0 : [0] ∈ l := by
    rw [← hl]
    exact List.mem_flatMap.mpr ⟨0, by decide, List.mem_filter.mpr ⟨List.mem_map.mpr ⟨0, List.mem_range.mpr (by decide), rfl⟩, by decide +kernel⟩⟩
  have one : ∀ r ∈ l, ∃ c, r = [c] := fun r hr => by
    rw [← hl] at hr
    obtain ⟨d, -, hr⟩ := List.mem_flatMap.mp hr
    obtain ⟨i, -, rfl⟩ := List.mem_map.mp (List.mem_filter.mp hr).1
    exact ⟨_, rfl⟩
  obtain ⟨r, hr, e⟩ := found (fun x => (leastOf (x.map (stPlace.weight (la12 .running).prot))).getD 0) _ h0
  obtain ⟨c, rfl⟩ := one r hr
  exact ⟨c, e⟩
theorem gang_meets {s : State} {la : Launch} {c : Nat} (h1 : s.startedLaunches = [la]) (h2 : s.siteFor la la.placed la.dies = some [c])
    (n : s.grid.down = false ∧ s.launch? la.record.lid = some la ∧ la.record.gang = 1 ∧ la.placedWhole = false ∧
      s.grid.sheds (la.record.cls % 4) = false ∧ la.placed < la.gangs ∧ 0 < la.record.warps ∧
      ∀ j ∈ List.range la.placed, s.gangOut la j = false) : HappensAt placeEvents s .gangPlacement := by
  unfold HappensAt placeEvents
  rw [h1]
  dsimp only
  rw [h2]
  exact ⟨_, rfl, n⟩
theorem witness_PlacementEvents_gang : HappensAt placeEvents stPlace .gangPlacement := by
  obtain ⟨c, e⟩ := stPlace_site
  exact gang_meets (by decide) e ⟨rfl, rfl, by decide, rfl, by decide, by decide, by decide, fun j hj => nomatch hj⟩
/-- The warp waits for 512 entries; at a step boundary; and there with an old steering table. -/
def stGrow (a : Nat) : State := { st false with issue := none, warps := [(key, { wp false with waiting := .grow a })] }
def stStep : State :=
  { st false with issue := none, launches := [(9, { la with record := { la.record with flags := 0x44 }, placed := 1, stepNext := 1 })]
                  warps := [(key, { wp false with waiting := .step })] }
def stSteer : State := { st false with issue := none, warps := [(key, { wp false with oldSteering := some ⟨[1, 0], [(0, 9)]⟩, waiting := .step })] }
theorem witness_PlacementEvents : HappensAt placeEvents (stGrow 512) (.regGrowGrant 3) ∧ HappensAt placeEvents (stGrow 2048) (.stallSwapOut 3) ∧
    HappensAt placeEvents stStep (.stepBoundary 9) ∧ HappensAt placeEvents stSteer (.steeringAdoption 9 0 []) ∧
    HappensAt placeEvents stDet .horizonPublish :=
  ⟨⟨_, rfl, by decide +kernel, rfl⟩, ⟨_, rfl, by decide +kernel⟩, ⟨_, rfl, rfl, by decide, by decide, by decide, by decide, fun c hc => nomatch hc⟩,
   ⟨_, rfl, rfl, by decide⟩, triv rfl⟩

/-- The parameter block of one iteration, and an admitted MMA of it. -/
def oneStep : Params :=
  { energy := 10, peak := 0, bv := false, bidx := 0, gran := 0, misc := 0, bounds := [1, 1, 1, 1, 1], s0 := [0, 0, 0, 0, 0], s1 := [0, 0, 0, 0, 0]
    addr0 := 0, addr1 := 0, raw := 0 }
def mmaCmd : Command :=
  { num := 0, key := key, lane := 0, pc := 0x102, hdr := 0x100, w0 := 0xD4000000, w1 := 0, instr := .mma always 21 6 7 1 true true false
    params := oneStep, gen := 1, slot := 1, reads := [6, 7], stage := .admitted }
/-- Core 3 holds a command. -/
def stCmd (x : Command) : State := { st false with issue := none, cores := [(3, { cmds := [(x.num, x)] })] }
/-- The command stands in the store gate. -/
def gated : Pend := heldPend (.command 0 none)
def stGated : State := { stP gated with cores := [(3, { cmds := [(0, { mmaCmd with stage := .gated })] })] }
theorem witness_AccessesComplete_command : HappensAt (fun s => accessEvents s key (wpP gated) gated) stGated (.storeGateRelease 9 0 4 64) :=
  ⟨_, rfl, ⟨rfl, rfl, rfl, List.Mem.head _, rfl, rfl, rfl, rfl, fun q h => by simp [itemsBefore, wpP] at h⟩, rfl⟩
/-- Three of the far channels are out, and an evacuation moves entry 0 of their table. -/
def stFar : State := { st false with farOut := [1, 2, 3], farTable := [(0, { unit := 1, moving := true, next := 4, cursor := 2 ^ 33 })] }
def stDroop : State :=
  { st false with warps := [(key, { wp false with issues := 7, undo := [{ num := 5, before := (wp false).toWarpArch }], pend := [regsPend] })] }
theorem witness_RepairEvents : ∀ i ∈ [.bankroleWrite 3 false 5, .bankroleWrite 4 true 0xFFFFFFFF, .laneGroupRetention 3 0xF],
    HappensAt repairEvents (st false) i := by
  repeat (first | exact noMore | refine more (triv rfl) ?_)
/-- The last unit of each kind. -/
theorem witness_RepairEvents_units : ∀ i ∈ [.unitRetirement 3 0 31, .unitRetirement 3 1 31, .unitRetirement 3 2 31, .unitRetirement 3 3 15,
    .selfTest 3 0xF, .selfTest 7 1], HappensAt repairEvents (st false) i := by
  repeat (first | exact noMore | refine more ⟨_, rfl, by decide, by decide⟩ ?_)
/-- A retirement for which nothing runs and none waits; and one that waits behind the evacuation of a far channel. -/
theorem witness_RepairEvents_order : noRetirement (st false) ∧ HappensAt repairEvents { stFar with retiring := some (.table .far 1) } (.unitRetirement 3 0 5) ∧
    ({ stFar with retiring := some (.table .far 1) } : State).retirementOver (.table .far 1) = false ∧
    ((stFar.core 3).isRetired 0 5) = false :=
  ⟨⟨rfl, fun r h => nomatch h⟩, ⟨_, rfl, by decide, by decide⟩, by decide, by decide⟩
theorem witness_RepairEvents_failures : HappensAt repairEvents stFar (.unitFailed .far 31 [0, 1, 2]) ∧
    HappensAt repairEvents stFar (.evacuationLineCopy .far false) ∧ HappensAt repairEvents (stCmd mmaCmd) (.columnResidueMismatch 3 15) ∧
    HappensAt repairEvents stDroop (.droopReport 0 [(9, 0, 5)]) :=
  ⟨⟨_, rfl, by decide, by decide, by decide⟩, ⟨_, rfl, by decide, by decide, rfl, by decide, Option.isSome_iff_exists.mp (by decide +kernel)⟩,
   ⟨_, rfl, by decide, ⟨rfl, fun r h => nomatch h⟩, rfl, by decide, by decide, by decide⟩, ⟨_, rfl, by decide, by decide, by decide⟩⟩
/-- Arming a legal event, and one that is not; and clearing FIRED and ERR. -/
theorem witness_RepairEvents_inject : ∀ v ∈ [(0x001F0001 : Word), 0x000000F1, 0x6], HappensAt repairEvents (st false) (.fictlWrite v) :=
  fun _ _ => triv rfl

/-- Page tables of root 0x2000 that map page 1 to page 100. -/
def tables : List Host.Cell :=
  [(0x2000, 1), (0x2001, 0x40), (0x4000, 1), (0x4001, 0x60), (0x6000, 1), (0x6001, 0x80), (0x8008, 0x0F), (0x800A, 100)]
def stTables : State := { st false with mem := tables, tlbi := { busy := true, scope := 5, allRoots := true, vaLo := 0x10000, npg := 1 } }
theorem witness_TranslationEvents_walk : HappensAt translationEvents stTables (.pageWalk 0 0x2000 0x10008) ∧
    HappensAt translationEvents stTables (.pageWalk 3 0x2000 0x20000) := by
  have h1 : stTables.pageEntry 0x2000 0x10008 = some page := by decide +kernel
  have h2 : stTables.pageEntry 0x2000 0x20000 = none := by decide +kernel
  constructor
  · unfold HappensAt translationEvents
    dsimp only
    rw [h1]
    exact ⟨_, rfl, (9, la), .head _, rfl⟩
  · unfold HappensAt translationEvents
    dsimp only
    rw [h2]
    exact ⟨_, rfl, trivial⟩
/-- TLBI_CTL while BUSY; without GO; with GO and a scope of 4, 5 and 0. -/
theorem witness_TranslationEvents : HappensAt translationEvents stTables (.tlbiGo 0x1280) ∧
    (∀ v ∈ [(0x280 : Word), 0x1200, 0x1280, 0x1000], HappensAt translationEvents (st false) (.tlbiGo v)) ∧
    HappensAt translationEvents stTables .tlbiComplete :=
  ⟨triv rfl, fun _ _ => triv rfl, ⟨_, rfl, rfl, by decide⟩⟩
/-- EPI of slot 0 to memory, COPY from memory to t2 and from t0 to memory, EPI to t2, and a conversion. -/
def epiCmd : Command :=
  { mmaCmd with instr := .epi always 22 0 .memory .relu 0 false false false false .stream, slot := 0, reads := []
                params := { oneStep with bounds := [2, 2, 1, 1, 1], s0 := [4, 8, 0, 0, 0], addr0 := 0x10000 } }
def epiTileCmd : Command :=
  { mmaCmd with instr := .epi always 23 2 .tile .silu 0 false false false false .normal, slot := 0, reads := [], fill := some 2
                params := { oneStep with bounds := [2, 2, 1, 1, 1] } }
def copyCmd (addr0 : Nat) : Command :=
  { mmaCmd with instr := .copy always 30 2 .memory .tile .strided 2 .normal, reads := [], fill := some 2
                params := { oneStep with bounds := [2, 1, 1, 1, 1], s0 := [4, 0, 0, 0, 0], s1 := [4, 0, 0, 0, 0], addr0 := addr0 } }
def copyOutCmd : Command :=
  { mmaCmd with instr := .copy always 31 0 .tile .memory .strided 2 .normal, reads := [0]
                params := { oneStep with bounds := [2, 1, 1, 1, 1], s0 := [4, 0, 0, 0, 0], s1 := [4, 0, 0, 0, 0], addr1 := 0x10000 } }
def tcvtCmd : Command := { mmaCmd with num := 32, instr := .tcvt always true .rtz 6 2, reads := [6], fill := some 2 }

theorem running {x : Command} (n : x.num = 0) (k : x.key = key) (l : x.lane = 0) (r : (stCmd x).running 3 0 = some x)
    (b : ∀ b ∈ x.params.bounds, 1 ≤ b ∧ b < 2 ^ 16) : Running (stCmd x) 3 0 x (wp false) grp where
  runs := r
  number := n
  warp := by rw [k]; rfl
  alive := rfl
  settled := rfl
  bounds := b
  fibre := by rw [l]; rfl
  member := by rw [k]; show key ∈ (st false).warpsOf ((st false).groupKey key); decide
  group := by rw [k]; rfl
  place := rfl
  image := by rw [k]; rfl
  plain := by rw [k]; rfl
  still := rfl
  applied := fun r h => nomatch h
  columns := rfl
theorem whole_epiCmd : ∀ n, n < 4 → (movedBy (stCmd epiCmd) 3 epiCmd (wp false) n).isSome = true := by decide +kernel
theorem whole_copyCmd : ∀ n, n < 2 → (movedBy (stCmd (copyCmd 0x10000)) 3 (copyCmd 0x10000) (wp false) n).isSome = true := by decide +kernel
theorem whole_copyOutCmd : ∀ n, n < 2 → (movedBy (stCmd copyOutCmd) 3 copyOutCmd (wp false) n).isSome = true := by decide +kernel
theorem witness_EngineCompletions_mma : HappensAt (fun s => engineEvents s mmaCmd (wp false) grp) (stCmd mmaCmd) (.mmaCompletion 3 0 10) ∧
    HappensAt (fun s => engineEvents s mmaCmd (wp false) grp) (stCmd mmaCmd) (.mmaCompletion 3 0 11) :=
  ⟨⟨_, rfl, running rfl rfl rfl rfl (by decide), by decide, rfl⟩, ⟨_, rfl, running rfl rfl rfl rfl (by decide), by decide, rfl⟩⟩
theorem witness_EngineCompletions_epi : HappensAt (fun s => engineEvents s epiCmd (wp false) grp) (stCmd epiCmd) (.epiCompletion 3 0 0) ∧
    HappensAt (fun s => engineEvents s epiTileCmd (wp false) grp) (stCmd epiTileCmd) (.epiCompletion 3 0 0) :=
  ⟨⟨_, rfl, running rfl rfl rfl rfl (by decide), rfl, fun n _ h => .inr (whole_epiCmd n h)⟩,
   ⟨_, rfl, running rfl rfl rfl rfl (by decide), rfl⟩⟩
theorem witness_EngineCompletions_copy :
    HappensAt (fun s => engineEvents s (copyCmd 0x10000) (wp false) grp) (stCmd (copyCmd 0x10000)) (.copyCompletion 3 0 0) ∧
    HappensAt (fun s => engineEvents s copyOutCmd (wp false) grp) (stCmd copyOutCmd) (.copyCompletion 3 0 0) :=
  ⟨⟨_, rfl, running rfl rfl rfl rfl (by decide), rfl, by decide, fun n _ h => .inr (whole_copyCmd n h), by decide⟩,
   ⟨_, rfl, running rfl rfl rfl rfl (by decide), rfl, by decide, fun n _ h => .inr (whole_copyOutCmd n h), by decide⟩⟩

/-- Page 2 lies in package 1. A copy from it asks for its first word; with the answer a copy of both words completes; a copy to it
sends its first word; with that performed and the second one not, it goes on. -/
def far (s : State) : State := { s with dies := [(0, { tlb := [{ root := 0x2000, vpage := 1, ppage := 100, r := true, w := true, x := true },
  { root := 0x2000, vpage := 2, ppage := 2 ^ 27, r := true, w := true, x := true }] })] }
def farOut : Command := { copyOutCmd with params := { copyOutCmd.params with addr1 := 0x20000 } }
/-- One word, answered or performed already. -/
def answeredCmd : Command :=
  { copyCmd 0x20000 with answers := [(2 ^ 43, [1, 2, 3, 4])], params := { (copyCmd 0x20000).params with bounds := [1, 1, 1, 1, 1] } }
def toldCmd : Command := { farOut with written := [0], params := { farOut.params with bounds := [1, 1, 1, 1, 1] } }
def refusedCmd : Command := { copyCmd 0x20000 with refused := some (2 ^ 43) }
theorem running_far {x : Command} (n : x.num = 0) (k : x.key = key) (l : x.lane = 0) (r : (far (stCmd x)).running 3 0 = some x)
    (b : ∀ b ∈ x.params.bounds, 1 ≤ b ∧ b < 2 ^ 16) : Running (far (stCmd x)) 3 0 x (wp false) grp where
  runs := r
  number := n
  warp := by rw [k]; rfl
  alive := rfl
  settled := rfl
  bounds := b
  fibre := by rw [l]; rfl
  member := by rw [k]; show key ∈ (st false).warpsOf ((st false).groupKey key); decide
  group := by rw [k]; rfl
  place := rfl
  image := by rw [k]; rfl
  plain := by rw [k]; rfl
  still := rfl
  applied := fun r h => nomatch h
  columns := rfl
theorem asks {x : Command} {v : Nat × Nat × Nat × List Byte} (n : x.num = 0) (k : x.key = key) (l : x.lane = 0)
    (r : (far (stCmd x)).running 3 0 = some x) (b : ∀ b ∈ x.params.bounds, 1 ≤ b ∧ b < 2 ^ 16)
    (f : firstStuck (far (stCmd x)) 3 x (wp false) = some 0)
    (h : wanted (far (stCmd x)) 3 x (wp false) 0 = some v) (a : (far (stCmd x)).awaits 3 x = false) :
    HappensAt (fun s => enginePeers s x (wp false) grp) (far (stCmd x)) (.copyCompletion 3 0 0) := by
  unfold HappensAt enginePeers
  dsimp only
  rw [f, Option.bind_some, h]
  exact ⟨_, rfl, running_far n k l r b, a, by show 0 < 4096; decide⟩
theorem witness_EngineCompletions_peers :
    wanted (far (stCmd (copyCmd 0x20000))) 3 (copyCmd 0x20000) (wp false) 0 = some (0x20000, 2 ^ 43, 0, [0, 0, 0, 0]) ∧
    HappensAt (fun s => enginePeers s (copyCmd 0x20000) (wp false) grp) (far (stCmd (copyCmd 0x20000))) (.copyCompletion 3 0 0) ∧
    wanted (far (stCmd farOut)) 3 farOut (wp false) 0 = some (0x20000, 2 ^ 43, 1, [0, 0, 0, 0]) ∧
    HappensAt (fun s => enginePeers s farOut (wp false) grp) (far (stCmd farOut)) (.copyCompletion 3 0 0) := by
  have h1 : wanted (far (stCmd (copyCmd 0x20000))) 3 (copyCmd 0x20000) (wp false) 0 = some (0x20000, 2 ^ 43, 0, [0, 0, 0, 0]) := by decide +kernel
  have h2 : wanted (far (stCmd farOut)) 3 farOut (wp false) 0 = some (0x20000, 2 ^ 43, 1, [0, 0, 0, 0]) := by decide +kernel
  exact ⟨h1, asks rfl rfl rfl (by decide) (by decide) (by decide +kernel) h1 (by decide), h2,
    asks rfl rfl rfl (by decide) (by decide) (by decide +kernel) h2 (by decide)⟩
theorem whole_answered : (movedBy (far (stCmd answeredCmd)) 3 answeredCmd (wp false) 0).isSome = true := by decide +kernel
theorem witness_EngineCompletions_answered :
    HappensAt (fun s => engineEvents s answeredCmd (wp false) grp) (far (stCmd answeredCmd)) (.copyCompletion 3 0 0) ∧
    HappensAt (fun s => engineEvents s toldCmd (wp false) grp) (far (stCmd toldCmd)) (.copyCompletion 3 0 0) :=
  ⟨⟨_, rfl, running_far rfl rfl rfl (by decide) (by decide), rfl, by decide,
      fun n _ h => .inr ((Nat.lt_one_iff.mp h) ▸ whole_answered), by decide⟩,
   ⟨_, rfl, running_far rfl rfl rfl (by decide) (by decide), rfl, by decide,
      fun n _ h => .inl (Nat.lt_one_iff.mp h ▸ List.Mem.head _), by decide⟩⟩
/-- Another package refused the word: the command ends. -/
theorem witness_EngineStopsAndEnds_refused : HappensAt (fun s => engineStops s refusedCmd (wp false) grp) (far (stCmd refusedCmd)) (.engineEnd 3 0) := by
  have h : endsAt (far (stCmd refusedCmd)) 3 refusedCmd (wp false) = some (0, 0x11, 4, 0x20000) := by decide +kernel
  unfold HappensAt engineStops
  dsimp only
  rw [h]
  exact ⟨_, rfl, running_far rfl rfl rfl (by decide) (by decide)⟩

theorem witness_EngineStopsAndEnds_tcvt : HappensAt (fun s => engineStops s tcvtCmd (wp false) grp) (stCmd tcvtCmd) (.tcvtCompletion 3 32) :=
  ⟨_, rfl, by decide, rfl, by decide, rfl, by decide, rfl, rfl, rfl, by decide, rfl, by decide⟩
/-- The second word of a copy lies in a page that is not mapped: the runtime services it. -/
theorem witness_EngineStopsAndEnds_fault : HappensAt (fun s => engineStops s (copyCmd 0x1FFFC) (wp false) grp) (stCmd (copyCmd 0x1FFFC)) (.engineStop 3 0 1) :=
  ⟨_, rfl, running rfl rfl rfl (by decide) (by decide), by decide, by decide, rfl, by decide, by decide,
    .inr fun n _ h => (show ∀ n, n < 1 → (movedBy (stCmd (copyCmd 0x1FFFC)) 3 (copyCmd 0x1FFFC) (wp false) n).isSome = true by decide +kernel) n h,
    .inl (by decide +kernel)⟩
/-- A stop at a stop point, of a package that drains, before the first iteration. -/
def stDraining : State := { stCmd mmaCmd with grid := { draining := true } }
theorem witness_EngineStopsAndEnds_stop : HappensAt (fun s => engineStops s mmaCmd (wp false) grp) stDraining (.engineStop 3 0 0) :=
  ⟨_, rfl, ⟨by decide, rfl, rfl, rfl, rfl, by decide, rfl, by decide, rfl, rfl, rfl, rfl, rfl, (fun r h => nomatch h), rfl⟩, by decide, by decide, rfl, by decide, by decide, .inl rfl,
    .inr ⟨by decide, by decide, .inl rfl⟩⟩
/-- An MMA on a core without a matrix column, and a gather whose index, 2, is not below its LIMIT, 1. -/
def stNoColumns : State := { st false with cores := [(3, { cmds := [(0, mmaCmd)], retiredCols := 0xFFFF })] }
def gatherCmd : Command :=
  { copyCmd 0x10000 with
    instr := .copy always 30 2 .memory .tile .gather 2 .normal
    params := { oneStep with misc := 72, s0 := [0, 0, 0, 0, 1], addr0 := 0x10000 } }
def stGather : State :=
  { stCmd gatherCmd with groups := [(⟨9, 0⟩, { grp with scratch := [(72, 2)] })] }
theorem witness_EngineStopsAndEnds_end : HappensAt (fun s => engineStops s mmaCmd (wp false) grp) stNoColumns (.engineEnd 3 0) ∧
    HappensAt (fun s => engineStops s gatherCmd (wp false) { grp with scratch := [(72, 2)] }) stGather (.engineEnd 3 0) := by
  have h1 : endsAt stNoColumns 3 mmaCmd (wp false) = some (0, 0x23, 6, 0) := by decide
  have h2 : endsAt stGather 3 gatherCmd (wp false) = some (0, 0x23, 5, 0x10008) := by decide +kernel
  constructor
  · unfold HappensAt engineStops
    dsimp only
    rw [h1]
    exact ⟨_, rfl, ⟨by decide, rfl, rfl, rfl, rfl, by decide, rfl, by decide, rfl, rfl, rfl, rfl, rfl, (fun r h => nomatch h), rfl⟩⟩
  · unfold HappensAt engineStops
    dsimp only
    rw [h2]
    exact ⟨_, rfl, ⟨by decide, rfl, rfl, rfl, rfl, by decide, rfl, by decide, rfl, rfl, rfl, rfl, rfl, (fun r h => nomatch h), rfl⟩⟩
/-- Cluster 0 has a balance of 100 nJ, and a waiting command of 10; cluster 1 has none. -/
def stAdmit : State := { stCmd { mmaCmd with stage := .waiting } with clusters := [(0, { bal := 100 })] }
theorem witness_EngineStopsAndEnds_admission : stAdmit.nextAdmission 0 = some (3, { mmaCmd with stage := .waiting }) ∧
    HappensAt (fun s => engineStops s mmaCmd (wp false) grp) stAdmit (.commandAdmission 0) ∧
    HappensAt (fun s => engineStops s mmaCmd (wp false) grp) stAdmit (.commandAdmission 1) := by
  have h0 : stAdmit.nextAdmission 0 = some (3, { mmaCmd with stage := .waiting }) := by decide +kernel
  have h1 : stAdmit.nextAdmission 1 = none := by decide +kernel
  refine ⟨h0, ?_, ?_⟩
  · unfold HappensAt engineStops
    dsimp only
    rw [h0]
    exact ⟨_, rfl, rfl⟩
  · unfold HappensAt engineStops
    dsimp only
    rw [h1]
    exact ⟨_, rfl, trivial⟩
/-- A record of warp 0 for its fibre 0, of a kind that its flags name; and the log entry of a load that it is about. -/
def record (flags : Nat) : FaultRec :=
  { cause := 0x10, reason := 1, flags := flags, tag := 6, lid := 9, warp := 0, mask := 1, addr := 0x10000, pc := 0x103, hdr := 0x100 }
def ldWord : Word := (encode (.ldB32 (mArg 4 10))).headD 0
def logged : LogEntry :=
  { w0 := ldWord, w1 := 0, pc := 0x103, hdr := 0x100, mask := [0], tag := 6, addrs := [(0, 0x10000)], data := [], dst := [(0, [68])], num := 4 }
def wpL : Warp := { wp false with log := [(0, logged)] }
def stopped : Command := { copyCmd 0x1FFFC with stage := .stopped, done := 1, record := some (0, 6) }
def dieWith (q : FaultQueue) : DieState := { fq := q, tlb := [{ root := 0x2000, vpage := 1, ppage := 100, r := true, w := true, x := true }] }
/-- The record is open in die 0, whose queue of 16 records stands at 0x20000. -/
def stOpen (flags : Nat) : State :=
  { st false with issue := none, warps := [(key, wpL)], cores := [(3, { cmds := [(0, stopped)] })]
                  dies := [(0, dieWith { baseLo := 0x20000, ctl := 0x24, open_ := [record flags] })] }
/-- The warp has no logged access. -/
def stOpenBare (flags : Nat) : State := { stOpen flags with warps := [(key, wp false)] }
/-- The record waits to be written; `cons` says how far the runtime has read. -/
def stPost (cons : Word) : State := { st false with dies := [(0, dieWith { baseLo := 0x20000, ctl := 0x24, prod := 16, cons := cons, waiting := [record 1] })] }
def FaultAt (w : Warp) (s : State) (i : Instr) : Prop := HappensAt (fun s => faultEvents s w) s i

/-- A record that is written, one that finds the ring full, and none. -/
theorem witness_FaultAnswers_post : FaultAt (wp false) (stPost 1) (.faultRecordPost 0) ∧ FaultAt (wp false) (stPost 0) (.faultRecordPost 0) ∧
    FaultAt (wp false) (stPost 0) (.faultRecordPost 1) := ⟨triv rfl, triv rfl, triv rfl⟩
/-- FQCTL while enabled, to a disabled queue without EN, and with sizes that are legal and not. -/
theorem witness_FaultAnswers_control : (∀ v ∈ [(0 : Word), 0x24], FaultAt (wp false) (stPost 0) (.fqctlWrite 0 v)) ∧
    ∀ v ∈ [(0x04 : Word), 0x24, 0x30, 0x23, 0x31], FaultAt (wp false) (stPost 0) (.fqctlWrite 2 v) := ⟨fun _ _ => triv rfl, fun _ _ => triv rfl⟩
theorem answered (flags : Nat) : Answered (stOpen flags) 0 6 (record flags) wpL where
  record := rfl
  warp := rfl
  place := by rw [show (record flags).key = key from rfl]; exact ⟨grp, 3, rfl, rfl, rfl⟩
theorem answeredBare (flags : Nat) : Answered (stOpenBare flags) 0 6 (record flags) (wp false) where
  record := rfl
  warp := rfl
  place := by rw [show (record flags).key = key from rfl]; exact ⟨grp, 3, rfl, rfl, rfl⟩
theorem witness_FaultAnswers_resume : FaultAt wpL (stOpen 1) (.fqrespResume 0 6) ∧ FaultAt wpL (stOpen 2) (.fqrespResume 0 6) ∧
    FaultAt (wp false) (stOpenBare 4) (.fqrespResume 0 6) ∧ FaultAt wpL (stOpen 1) (.fqrespResume 0 7) := by
  refine ⟨⟨_, rfl, answered 1, rfl, rfl, by decide, .ldB32 (mArg 4 10), _, of_decodesTo (by decide), rfl, .inr ⟨_, rfl⟩, ?_⟩, ⟨_, rfl, 3, grp, rfl, rfl, rfl, by decide⟩,
    ⟨_, rfl, answeredBare 4, fun e he => nomatch he⟩, triv rfl⟩
  intro l hl
  rw [show l = 0 by simpa using (show l ∈ [0] from hl)]
  exact ⟨6553600, page, by decide, by decide⟩
/-- A flush of the buffer of core 3 is held under the record. -/
def stHeld : State := { stOpen 32 with cores := [(3, { comb := [{ resting with held := some (0, 6) }] })] }
theorem witness_FaultAnswers_deliver : FaultAt wpL (stOpen 1) (.fqrespDeliver 0 6) ∧ FaultAt (wp false) (stOpenBare 4) (.fqrespDeliver 0 6) ∧
    FaultAt wpL stHeld (.fqrespDeliver 0 6) ∧ FaultAt wpL (stOpen 1) (.fqrespDeliver 0 7) := by
  refine ⟨⟨_, rfl, answered 1, rfl, fib false, rfl, rfl⟩, ⟨_, rfl, answeredBare 4, rfl, ?_⟩, triv rfl, triv rfl⟩
  intro l hl
  rw [show l = 0 by revert hl; unfold named; intro hl; have := (show ∀ l ∈ (List.range 64).filter (fun l => (1 : Nat).testBit l), l = 0 by decide) l hl; exact this]
  exact ⟨fib false, rfl, rfl⟩
/-- The launch has two groups, so that one of them can end before the launch does. -/
def stGroups : State := { stOpen 4 with launches := [(9, { la with record := { la.record with gridx := 2 } })] }
theorem witness_FaultAnswers_end : FaultAt wpL stGroups (.fqrespEnd 0 6) ∧ FaultAt wpL stGroups (.fqrespEnd 0 7) :=
  ⟨⟨_, rfl, ⟨grp, rfl⟩, by decide⟩, triv rfl⟩

/-- A group that waits for an answer of its die's runtime; one that the runtime names; and one that is stopping. -/
def stSwap (q : Group) : State :=
  { st false with issue := none, groups := [(⟨9, 0⟩, q)], front := { spoolLo := 0x00400000, spoolSz := 64, swapLid := 9 }
                  warps := [(key, { wp false with waiting := .barrier ⟨.core, 3⟩ })] }
theorem witness_SwapEvents : HappensAt swapEvents (stSwap { grp with records := [(0, 6)] }) (.serviceSwapOut 9 0) ∧
    HappensAt swapEvents (stSwap grp) (.swapreq 0) ∧ HappensAt swapEvents (stSwap grp) (.swapreq 5) ∧
    HappensAt swapEvents (stSwap { grp with place := .saved 0x400000 65536 }) (.swapreq 0) ∧
    HappensAt swapEvents (stSwap { grp with stopping := true }) (.swapOut 9 0) :=
  ⟨⟨_, rfl, ⟨3, rfl, by decide⟩, by decide, by decide, rfl⟩, ⟨_, rfl, by decide, rfl⟩, triv rfl, triv rfl,
   ⟨_, rfl, ⟨3, rfl, rfl, rfl, fun e he => nomatch he⟩, by decide, by decide, rfl⟩⟩
/-- The pool has room for its image, and, when its size is 0, none. -/
theorem witness_SwapEvents_room : ((stSwap { grp with stopping := true }).poolRoom 4096).isSome = true ∧
    ({ stSwap { grp with stopping := true } with front := {} } : State).poolRoom 4096 = none := by decide +kernel
/-- A frame of a type with its fields and CRC (R340). -/
def frameOf (type : Nat) (fields : List Byte) : List Byte :=
  let body := bytesOf 1 type ++ bytesOf 1 0 ++ fields
  body ++ bytesOf 4 (crc32 body).toNat
/-- 50.000 Hz and 480 V; and a step of 1,000 W with STEPID 7. -/
def telemetry : List Byte := frameOf 1 (bytesOf 4 50000 ++ bytesOf 2 480 ++ bytesOf 4 0)
def stepOf : List Byte := frameOf 2 (bytesOf 2 7 ++ bytesOf 2 1000 ++ bytesOf 6 0)
def stGrid (g : Grid) : State := { st false with issue := none, grid := g }
theorem witness_GridEvents_frames : (validFrame telemetry 1 ∧ HappensAt gridEvents (stGrid {}) (.telemetryFrame telemetry)) ∧
    (frameOk [] = false ∧ HappensAt gridEvents (stGrid {}) (.telemetryFrame [])) ∧
    (validFrame stepOf 2 ∧ HappensAt gridEvents (stGrid {}) (.stepFrame stepOf) ∧ HappensAt gridEvents (stGrid { stepEn := false }) (.stepFrame stepOf) ∧
      HappensAt gridEvents (stGrid { lastStep := some 7 }) (.stepFrame stepOf)) :=
  ⟨⟨⟨by decide +kernel, by decide +kernel⟩, triv rfl⟩, ⟨by decide, triv rfl⟩, ⟨by decide +kernel, by decide +kernel⟩, triv rfl, triv rfl, triv rfl⟩
theorem witness_GridEvents : (∀ i ∈ [.discardedFrame, .frameerrRead, .stepAcknowledgement, .linkLost, .gridConfigWrite 0x10 0xFF380000,
    .gridConfigWrite 0x5C 1, .gridConfigWrite 0x30 1000, .gridConfigWrite 2 5, .throttleInterval 4000, .throttleInterval 3700, .throttleInterval 3650, .backstop],
      HappensAt gridEvents (stGrid {}) i) ∧
    (∀ i ∈ [.stepAcknowledgement, .linkLost, .gridConfigWrite 0x5C 1, .throttleInterval 3000, .throttleInterval 9000, .backstop], HappensAt gridEvents
      (stGrid { acks := [(7, false)], stage := 5, sub := 1, resumed := true, linkLost := true, pmeas := 4000, quiet := 30 }) i) := by
  constructor <;> repeat (first | exact noMore | refine more (triv rfl) ?_)
def stShed : State := { st false with warps := [(key, { wp false with shedMark := true })] }
theorem witness_GridEvents_shed : HappensAt gridEvents stShed .shedDeadline := ⟨_, rfl, by decide⟩

theorem witness_ClusterEvents : (∀ i ∈ [.admissionInterval, .clusterWake 0 0, .clusterWake 1 3], HappensAt clusterEvents (stGrid {}) i) ∧
    (∀ i ∈ [.admissionInterval, .clusterWake 0 0, .clusterWake 0 2], HappensAt clusterEvents
      { stGrid { stage := 5, sub := 2 } with clusters := [(0, { retained := true, debt := 200000 }), (1, { debt := 10 })] } i) := by
  constructor <;> repeat (first | exact noMore | refine more (triv rfl) ?_)
/-- A retained cluster that stage 6 put to sleep, at stage 5: it wakes. -/
def stWakes : State := { stGrid { stage := 5, sub := 2 } with clusters := [(0, { retained := true, cause := 6 })] }
theorem witness_ClusterEvents_wake : stWakes.wakes 0 = true ∧ stWakes.poison = [] ∧
    ((stWakes.cluster 0).cause ≠ 0 ∧ stWakes.grid.stage < (stWakes.cluster 0).cause) ∧
    HappensAt clusterEvents stWakes (.clusterWake 0 0) ∧ HappensAt clusterEvents stWakes (.clusterWake 0 3) :=
  ⟨by decide, rfl, by decide, triv rfl, triv rfl⟩
/-- A fall of TARGET whose 600 µs end with the power above it. -/
theorem witness_GridEvents_backstop : let s := stGrid { falls := 1, pmeas := 4000, target := 3000 }
    s.grid.falls ≠ 0 ∧ s.grid.backstop = false ∧ s.grid.down = false ∧ s.grid.target < s.grid.pmeas ∧ HappensAt gridEvents s .backstop :=
  ⟨by decide, rfl, rfl, by decide, triv rfl⟩
/-- A cluster without groups keeps nothing; its save area is the first 64 KiB of die 0's channels. -/
def stRetain : State := { stGrid {} with groups := [], warps := [], clusters := [(0, { crSz := 1 })] }
theorem witness_ClusterEvents_entry : HappensAt clusterEvents stRetain (.clusterRetentionEntry 0) :=
  ⟨_, rfl, by decide, by decide, by decide, by decide, by decide, fun g hg => nomatch hg⟩

/-- A request of kind `kind` that core 3 made of package 5 for an item of the warp. -/
def asked (kind : Nat) : PeerOut := { seq := 0, key := key, num := 4, lane := 0, kind := kind, pa := 0x50000000008 }
def remote (kind : PendKind) : Pend := { pend kind with stage := .remote [0] }
def remoteLoad : Pend := remote (.load (.mem 0x50000000008) 4 .zext [66])
def remoteStore : Pend := remote (.store (.mem 0x50000000008) [1, 2, 3, 4])
def stPeer (p : Pend) (kind : Nat) : State := { stP p with flows := [((3, 5), { seq := 1, open_ := [asked kind] })] }
def PeerAt (kind : Nat) (p : Pend) (i : Instr) : Prop := HappensAt (fun s => peerEvents s (asked kind) (wpP p) p) (stPeer p kind) i
theorem peerAsked (kind : Nat) (p : Pend) (h : (stPeer p kind).itemOf (asked kind) = some p) :
    Asked (stPeer p kind) 3 5 0 false (asked kind) (wpP p) p where
  request := rfl
  own := rfl
  warp := rfl
  alive := rfl
  member := show key ∈ (st false).warpsOf ((st false).groupKey key) by decide
  item := h
theorem witness_PeerEvents_responses : PeerAt 0 remoteLoad (.peerResponse 3 5 0 false [1, 2, 3, 4]) ∧ PeerAt 1 remoteStore (.peerResponse 3 5 0 false []) ∧
    PeerAt 0 remoteLoad (.peerFaultResponse 3 5 0 false 0x11 4) ∧ PeerAt 0 remoteLoad (.peerTimeout 3 5 0) :=
  ⟨⟨_, rfl, peerAsked 0 _ (by decide)⟩, ⟨_, rfl, peerAsked 1 _ (by decide)⟩, ⟨_, rfl, peerAsked 0 _ (by decide), by decide, rfl⟩,
   ⟨_, rfl, ⟨false, peerAsked 0 _ (by decide), rfl⟩, rfl, by decide, rfl⟩⟩
/-- Requests of package 5 for 4 bytes of near memory and of none; the first of a new epoch; one whose run goes on, one ahead of its
turn, and one that comes late. -/
def requests : List Instr :=
  let d : List Byte := [1, 2, 3, 4]
  [.peerRequest 5 3 0 0 0x1000 false false false .add .n32 d, .peerRequest 5 3 0 1 0x1000 false false false .add .n32 d,
   .peerRequest 5 3 0 2 0x1000 false false false .add .n32 d, .peerRequest 5 3 0 3 0x1000 false false false .max .s32 d,
   .peerRequest 5 3 0 4 0x1000 false false false .add .n32 (d ++ d), .peerRequest 5 3 0 0 0x60000000000 false false false .add .n32 d,
   .peerRequest 5 3 0 1 0x1000 true false false .add .n32 d, .peerRequest 5 3 0 2 0x1000 false false true .add .n32 d,
   .peerRequest 5 3 4095 1 0x1000 false false false .add .n32 d]
theorem witness_PeerEvents_requests : ∀ i ∈ requests, PeerAt 0 remoteLoad i := by
  repeat (first | exact noMore | refine more ⟨_, rfl, rfl, by decide, by first | rfl | decide⟩ ?_)
theorem witness_PeerEvents_late : PeerAt 0 remoteLoad (.peerRequest 5 3 0 0 0x1000 true true false .add .n32 [1]) := triv rfl
/-- Package 1 answers, or refuses, what command 0 of core 3 asked of it. -/
def askedBy (kind : Nat) : PeerOut := { seq := 0, key := key, num := 0, lane := 0, kind := kind, pa := 2 ^ 43, cmd := some 0 }
def stAnswer (kind : Nat) : State := { far (stCmd (copyCmd 0x20000)) with flows := [((3, 1), { seq := 1, open_ := [askedBy kind] })] }
theorem witness_PeerEvents_commands :
    HappensAt (fun s => peerEvents s (askedBy 0) (wp false) loadPend) (stAnswer 0) (.peerResponse 3 1 0 false [1, 2, 3, 4]) ∧
    HappensAt (fun s => peerEvents s (askedBy 1) (wp false) loadPend) (stAnswer 1) (.peerResponse 3 1 0 false []) ∧
    HappensAt (fun s => peerEvents s (askedBy 0) (wp false) loadPend) (stAnswer 0) (.peerFaultResponse 3 1 0 false 0x11 4) :=
  ⟨⟨_, rfl, rfl⟩, ⟨_, rfl, rfl⟩, ⟨_, rfl, rfl⟩⟩
theorem witness_PeerEvents_control : ∀ v ∈ [(0 : Word), 0x0C, 0x24, 0x2C, 0x23, 0x2D], PeerAt 0 remoteLoad (.pflogCtlWrite v) := fun _ _ => triv rfl
/-- The name (1, 2, 3), for which package 5 and tile t3 of the warp wait until 40 µs; its tile is stored, or it is retired. -/
def name123 : Name := wireName 1 2 3
def stHub (r : Router) : State := { st false with issue := none, router := r }
def pit123 : KMap Name (List (Face × Nat)) := [(name123, [(.package 5, 40), (.consumer key 3, 40)])]
def stored123 : StoredTile := { name := name123, tile := { control := 0x10, slot := 0, image := [1, 2] } }
/-- One route: names of tensor 1 live in package `n`. -/
def routes (n : Word) : NMap Route := [(0, { tensor := 1, ctl := 0x80000000 + n })]
theorem witness_HubEvents : ∀ r ∈ [{}, { pit := pit123 }, { store := [stored123] }, { retiredNames := [name123] }, { nrt := routes 6 },
    { nrt := routes 0 },
    ({ nrt := routes 6, unreached := [6] } : Router)], HappensAt hubEvents (stHub r) (.interestMsg 5 1 2 3 100) ∧
      HappensAt hubEvents (stHub r) (.tileMsg 1 2 3 0x10 0 [1, 2, 3, 4] true) ∧ HappensAt hubEvents (stHub r) (.endMsg 1 2 3 false 0) ∧
      HappensAt hubEvents (stHub r) (.endMsg 1 2 3 true 3) ∧ HappensAt hubEvents (stHub r) .tsctlFlush ∧ HappensAt hubEvents (stHub r) .namerefRead := by
  exact fun _ _ => ⟨triv rfl, triv rfl, triv rfl, triv rfl, triv rfl, triv rfl⟩
theorem witness_HubEvents_retire : HappensAt hubEvents (stHub {}) (.retireMsg 1 2 3) ∧ HappensAt hubEvents (stHub { nrt := routes 6 }) (.retireMsg 1 2 3) ∧
    HappensAt hubEvents (stHub { nrt := routes 0, pit := pit123 }) (.retireMsg 1 2 3) := by
  have h0 : ({} : Router).next name123 = none := by decide +kernel
  have h1 : ({ nrt := routes 6 } : Router).next name123 = some 6 := by decide +kernel
  have h2 : ({ nrt := routes 0, pit := pit123 } : Router).next name123 = some 0 := by decide +kernel
  have at_ (r : Router) (q : Option Nat) (h : r.next name123 = q) : HappensAt hubEvents (stHub r) (.retireMsg 1 2 3) := by
    unfold HappensAt hubEvents
    dsimp only
    rw [show (stHub r).router.next (wireName 1 2 3) = q from h]
    cases q with
    | none => exact ⟨_, rfl, trivial⟩
    | some q =>
      dsimp only
      split <;> exact ⟨_, rfl, trivial⟩
  exact ⟨at_ _ _ h0, at_ _ _ h1, at_ _ _ h2⟩
/-- Before the expiry of a local face and after it. -/
theorem witness_FacesExpire : HappensAt expiryEvents (stHub { pit := pit123, now := 39 }) .faceExpiry ∧
    HappensAt expiryEvents (stHub { pit := pit123, now := 40 }) .faceExpiry := ⟨triv rfl, triv rfl⟩

/-- A package whose group stands at a barrier, and which can stop; and one that is drained, with valid images or a group still out. -/
def stDrain : State := { st false with issue := none, warps := [(key, { wp false with waiting := .barrier ⟨.core, 3⟩ })] }
theorem witness_DrainEvents : (({ stDrain with grid := { draining := true } } : State).mayDrain = true ∧ HappensAt drainEvents stDrain .drain) ∧
    HappensAt drainEvents { stDrain with onModule := false, ck := { busy := true, pending := [1] } } .drain ∧
    (∀ i ∈ [.powerReturn, .holdExpiry], HappensAt drainEvents stDrain i ∧ HappensAt drainEvents (stGrid { drained := true, valid := true }) i ∧
      HappensAt drainEvents (stGrid { drained := true, stale := true }) i ∧ HappensAt drainEvents (stGrid { draining := true }) i ∧
      HappensAt drainEvents (stGrid { drained := true, valid := true, draining := true }) i) :=
  ⟨⟨by decide, _, rfl, rfl, fun i _ => rfl, by decide, by decide, fun c hc => nomatch hc⟩,
   ⟨_, rfl, rfl, fun i _ => rfl, by decide, by decide, fun c hc => nomatch hc⟩,
   more ⟨triv rfl, triv rfl, triv rfl, triv rfl, triv rfl⟩ (more ⟨triv rfl, triv rfl, triv rfl, triv rfl, triv rfl⟩ noMore)⟩

/-- The group's launch and its one warp, and no command. -/
theorem witness_ImageLayouts : (stDrain.launch? 9).isSome = true ∧ (stDrain.group? ⟨9, 0⟩).isSome = true ∧
    (stDrain.warpsOf ⟨9, 0⟩).map stDrain.warp? = [stDrain.warp? key] ∧ stDrain.imageCommands ⟨9, 0⟩ = [] := ⟨rfl, rfl, rfl, rfl⟩
/-- Copies of one shard of 256 bytes: into far memory, to the buddy and to the file. -/
def stCopies : State :=
  { st false with ck := { busy := true, localArea := 0x10000000000, remote := 0x20000, peer := 0x30000, half := 16, buddy := 4, copyStep := 1
                          shards := [List.replicate 256 1], pending := [0, 1, 2] } }
theorem witness_CheckpointEvents : (∀ c ∈ [0, 1, 2, 5], ∀ n ∈ [0, 1, 2], HappensAt checkpointEvents stCopies (.checkpointCopyDone c n)) ∧
    HappensAt checkpointEvents stCopies .restoreGo ∧ HappensAt checkpointEvents stCopies (.restoreComplete [] []) := by
  refine ⟨?_, triv rfl, triv rfl⟩
  intro c hc n _
  simp only [List.mem_cons, List.not_mem_nil, or_false] at hc
  rcases hc with rfl | rfl | rfl | rfl
  · exact ⟨_, rfl, rfl⟩
  · exact ⟨_, rfl, rfl⟩
  · exact ⟨_, rfl, rfl⟩
  · exact triv rfl
/-- A restore in progress that finds nothing. -/
theorem witness_CheckpointEvents_restore : HappensAt checkpointEvents { stCopies with ck := { rsBusy := true, rsSrc := 7 } } (.restoreComplete [[]] []) := triv rfl

def stTrust (level : Nat) (b : Boot) : State := { State.reset with level := level, boot := b }
theorem witness_TrustEvents : ∀ b ∈ [{}, { err := 1 }, { ran := [0, 1, 2] }, { atBusy := true }, ({ iftStat := 1 } : Boot)], ∀ l,
    HappensAt trustEvents (stTrust l b) .serviceLevelChange ∧ HappensAt trustEvents (stTrust l b) .powerGood ∧
    HappensAt trustEvents (stTrust l b) (.measExtend 3) ∧ HappensAt trustEvents (stTrust l b) .quoteRequest ∧
    HappensAt trustEvents (stTrust l b) .quoteComplete ∧ HappensAt trustEvents (stTrust l b) (.maarQuoteRequest [1] 0xFF) ∧
    HappensAt trustEvents (stTrust l b) (.iftGo 0x80000000) ∧ HappensAt trustEvents (stTrust l b) (.iftGo 0x8000000C) ∧
    HappensAt trustEvents (stTrust l b) (.iftComplete [(0, 0, 31)] false) ∧ HappensAt trustEvents (stTrust l b) (.iftComplete [] true) :=
  fun _ _ _ => ⟨triv rfl, triv rfl, triv rfl, triv rfl, triv rfl, triv rfl, triv rfl, triv rfl, triv rfl, triv rfl⟩
/-- A stage of boot: the first, the last, one that has run, and none after an error. -/
theorem witness_TrustEvents_boot : HappensAt trustEvents (stTrust 0 {}) (.bootStage 0 [] [] [1] true true) ∧
    HappensAt trustEvents (stTrust 1 { ran := [0, 1, 2, 3] }) (.bootStage 4 [] [] [1] true true) ∧
    HappensAt trustEvents (stTrust 1 { ran := [0, 1] }) (.bootStage 1 [] [] [1] true true) ∧
    HappensAt trustEvents (stTrust 1 { err := 2 }) (.bootStage 2 [] [] [1] true true) := ⟨triv rfl, triv rfl, triv rfl, triv rfl⟩

theorem witness_HostEvents_registers : HappensAt hostEvents (st false) (.registerWrite 0x400 9) ∧ HappensAt hostEvents (st false) (.registerWrite 0x401 9) ∧
    HappensAt hostEvents (st false) (.registerWrite 0x4004 9) ∧ HappensAt hostEvents (st false) (.registerWrite 0x408C 1) ∧
    HappensAt hostEvents (st false) (.registerWrite 0x10004 7) := by
  refine ⟨⟨_, rfl, trivial⟩, ⟨_, rfl, trivial⟩, ⟨_, rfl, trivial⟩, ⟨_, rfl, trivial⟩, ⟨_, rfl, trivial⟩⟩
/-- Stores and loads of 1 and 16 bytes in memory, a store to a control register and a load of it, stores and loads of the first and the
last row of the MSI-X table, and a misaligned store. -/
theorem witness_HostEvents_windows : ∀ i ∈ [.hostWindowAccess 1 0x1000 16 true 5, .hostWindowAccess 1 0x1001 1 false 0, .hostWindowAccess 0 0x400 4 true 9,
    .hostWindowAccess 0 0x400 4 false 0, .hostWindowAccess 2 12 4 true 1, .hostWindowAccess 2 252 4 true 0, .hostWindowAccess 2 240 4 false 0, .hostWindowAccess 1 0x1001 2 true 1], HappensAt hostEvents (st false) i := by
  repeat (first | exact noMore | refine more (triv rfl) ?_)

/-- The header at word 0x40 of a launch whose code begins at 0x10000, and the warp's fibres at it. -/
def clauseLaunch : Launch := { la with record := { la.record with codebase := 0x10000 } }
def wpH : Warp := { wp false with slots := [(0, { fib false with pc := 0x40, hdr := 0x40, inside := false, body := [] }),
  (1, { fib false with pc := 0x40, hdr := 0x40, inside := false, body := [] })] }
def stClause (words : List Word) : State :=
  { st false with launches := [(9, clauseLaunch)], warps := [(key, wpH)], mem := bytesAt (100 * 65536 + 0x100) (words.flatMap (fun w => bytesOf 4 w.toNat)) }
/-- A clause of one NOP; a header with a reserved bit set; and a header of no words. -/
theorem witness_ClauseEntries : HappensAt (fun s => clauseEvents s iss wpH clauseLaunch 0x40 1 [0x70700000]) (stClause [1, 0x70700000]) .clauseEntry ∧
    HappensAt (fun s => clauseEvents s iss wpH clauseLaunch 0x40 0x8001 []) (stClause [0x8001]) .clauseEntry ∧
    HappensAt (fun s => clauseEvents s iss wpH clauseLaunch 0x40 0x10 []) (stClause [0x10]) .clauseEntry := by
  have live : ∀ l ∈ iss.sel.lanes, ∃ f, wpH.fibre? l = some f ∧ f.handler = false := by
    intro l hl
    have : l = 0 ∨ l = 1 := by simpa using (show l ∈ [0, 1] from hl)
    rcases this with rfl | rfl <;> exact ⟨_, rfl, rfl⟩
  refine ⟨⟨_, rfl, ⟨rfl, rfl, rfl, rfl, ⟨0, _, rfl, rfl, rfl, rfl⟩, by decide +kernel⟩, by decide, by decide⟩,
    ⟨_, rfl, ⟨rfl, rfl, rfl, rfl, ⟨0, _, rfl, rfl, rfl, rfl⟩, by decide +kernel⟩, rfl, by decide, live⟩,
    ⟨_, rfl, ⟨rfl, rfl, rfl, rfl, ⟨0, _, rfl, rfl, rfl, rfl⟩, by decide +kernel⟩, rfl, by decide, live⟩⟩
/-! ## Witnesses: whole machine -/

/-- The warp's fibres stand at the third word of their clause, `word`, with their set or none; a droop report comes next. -/
def iaddWord : Word := (encode (.iadd fa3)).headD 0
def fibS (word : Word) : Fibre := { fib false with body := [0, 0, word] }
def wpS (word : Word) (sel : Option Sel) : Warp := { wp false with sel := sel, slots := [(0, fibS word), (1, fibS word), (2, fibS word)] }
def stStand (word : Word) (sel : Option Sel) (agenda : List Turn) : State :=
  { st false with issue := none, warps := [(key, wpS word sel)], agenda := agenda }
def later : List Turn := [.event (.droopReport 0 [])]
/-- All three fibres are chosen where the warp has no set. -/
def three : Sel := ⟨[0, 1, 2], [0, 1, 2], false, true, false⟩
theorem fibS_are {word : Word} {sel : Option Sel} {l : Lane} {g : Fibre} (e : (wpS word sel).fibre? l = some g) : g = fibS word := by
  match l with
  | 0 | 1 | 2 => exact ((Option.some.injEq ..).mp e).symm
  | n + 3 => simp [Warp.fibre?, wpS, nget?] at e
theorem standing {s : State} {word : Word} {sel : Option Sel} {x : Sel} (hw : s.warp? key = some (wpS word sel)) (c : s.canIssue key = true)
    (u : s.hasTurn key = true) (hs : (match (wpS word sel).sel with
      | some x => some (x, (wpS word sel).serial)
      | none => (wpS word sel).choose) = some (x, false)) (h : (x.lanes.filterMap (wpS word sel).fibre?).head? = some (fibS word)) :
    Standing s key (wpS word sel) x false (fibS word) where
  warp := hw
  issues := c
  turn := u
  free := rfl
  set := hs
  first := h
  inside := rfl
  fetched := fun _ _ _ e => fibS_are e ▸ rfl
  mask := .inl rfl
/-- The move that an agenda names, with a set and without; the one that the model finds; and an event. -/
theorem witness_StepRunsDecoded : decodeWords iaddWord 0 = .ok (.iadd fa3) ∧
    (due (stStand iaddWord none (.warp key :: later)) (.warp key) later ∧
      Standing (begun (stStand iaddWord none (.warp key :: later)) later) key (wpS iaddWord none) three false (fibS iaddWord)) ∧
    (due (stStand iaddWord (some iss.sel) []) (.warp key) [] ∧
      Standing (begun (stStand iaddWord (some iss.sel) []) []) key (wpS iaddWord (some iss.sel)) iss.sel false (fibS iaddWord)) ∧
    due (stStand iaddWord none later) (.event (.droopReport 0 [])) [] := by
  refine ⟨of_decodesTo (by decide), ⟨.inl rfl, standing (by decide) (by decide) (by decide) (by decide) rfl⟩,
    ⟨.inr ⟨rfl, rfl, by decide⟩, standing (by decide) (by decide) (by decide) rfl rfl⟩, .inl rfl⟩
/-- A word whose reserved field is not zero. -/
theorem witness_ReservedWordsTrap : (decodeWords 0x12000001 0).toOption.isSome = false ∧
    let s := stStand 0x12000001 (some iss.sel) (.warp key :: later)
    due s (.warp key) later ∧ Standing (begun s later) key (wpS 0x12000001 (some iss.sel)) iss.sel false (fibS 0x12000001) ∧
    s.launch? key.lid = some la ∧ la.hdlr = true ∧ iss.sel.lanes.Nodup ∧
    ∀ l ∈ iss.sel.lanes, ∃ g, (wpS 0x12000001 (some iss.sel)).fibre? l = some g ∧ g.handler = false := by
  refine ⟨by decide, .inl rfl, standing (by decide) (by decide) (by decide) rfl rfl, rfl, rfl, by decide, fun l i => ?_⟩
  have : l = 0 ∨ l = 1 := by simpa [iss] using i
  rcases this with rfl | rfl <;> exact ⟨_, rfl, rfl⟩
/-- Well-formed instructions of one and of two words. -/
theorem witness_DecodeEncodeRoundTrip : ∀ i ∈ [.iadd fa3, .movi always 63 0xFFFFFFFF, .unassignedOpcodeIssue 0x16FFFFFF, .tcvt ⟨true, 6⟩ true .rsr 15 0],
    agentStep i = false ∧ WellFormed i := by unfold WellFormed; decide
/-- A word of an opcode that has a guard, whose decoding ends in an instruction and in a rejection. -/
theorem witness_GuardLeavesDecoding : (iaddWord.toNat / 2 ^ 24 ≠ 0x3A ∧ iaddWord.toNat / 2 ^ 24 ≠ 0x3B) ∧ (decodeWords iaddWord 0).toOption.isSome = true ∧
    (decodeWords 0x12000001 0).toOption.isSome = false := by decide
/-- A state with memory of its own, not the one after reset, takes a step. -/
theorem witness_StepKeepsMemoryForm : MemoryOk stTables ∧ ∃ t, step { stTables with agenda := [.event .discardedFrame] } = .next t :=
  ⟨by unfold MemoryOk; decide, _, rfl⟩
/-- The least subnormal, the greatest finite value and negative zero of FP8 and of FP32. -/
theorem witness_EncodingsRoundToThemselves : ∀ e ∈ [(e4m3, 1), (e4m3, 0x7E), (e4m3, 0x80), (e5m2, 0x7B), (f32, 0x7F7FFFFF), (f32, 1), (bf16, 0x8000), (f16, 0x7BFF)],
    e.2 < 2 ^ (1 + e.1.ebits + e.1.fbits) ∧ ∃ neg m x, fdec e.1 e.2 = .fin neg m x := by
  have one (fm : Fmt) (c : Nat) (h : c < 2 ^ (1 + fm.ebits + fm.fbits)) (f : (match fdec fm c with
      | .fin .. => true
      | _ => false) = true) : c < 2 ^ (1 + fm.ebits + fm.fbits) ∧ ∃ neg m x, fdec fm c = .fin neg m x := by
    split at f
    · exact ⟨h, _, _, _, ‹_›⟩
    · cases f
  intro e he
  have all : ([(e4m3, 1), (e4m3, 0x7E), (e4m3, 0x80), (e5m2, 0x7B), (f32, 0x7F7FFFFF), (f32, 1), (bf16, 0x8000), (f16, 0x7BFF)] : List (Fmt × Nat)).all (fun e =>
      decide (e.2 < 2 ^ (1 + e.1.ebits + e.1.fbits)) && (match fdec e.1 e.2 with
        | .fin .. => true
        | _ => false)) = true := by decide
  have := List.all_eq_true.mp all e he
  simp only [Bool.and_eq_true, decide_eq_true_eq] at this
  exact one _ _ this.1 this.2

/-! ## Results of one step, from the spec's rules -/

/-- The state with v2 = d, v4 = a, v5 = a', v6 = b, v7 = b' in every fibre. -/
def stV (d a a' b b' : Word) : State :=
  let f : Fibre := { fib false with entries := [(66, ⟨d, true⟩), (68, ⟨a, true⟩), (69, ⟨a', true⟩), (70, ⟨b, true⟩), (71, ⟨b', true⟩)] }
  { st false with warps := [(key, { wp false with slots := [(0, f), (1, f), (2, f)] })] }
/-- Fibre `l` after an instruction, and the first item that is then outstanding. -/
def after (s : State) (i : Instr) (l : Lane) : Option Fibre :=
  match exec i s with
  | .next t => (t.warp? key).bind (·.fibre? l)
  | _ => none
def pending (s : State) (i : Instr) : Option PendKind :=
  match exec i s with
  | .next t => ((t.warp? key).bind (·.pend.head?)).map (·.kind)
  | _ => none
/-- v2 of fibre 0 after an instruction on a and b. -/
def gives (i : Instr) (d a b r : Word) : Bool := (after (stV d a 0 b 0) i 0).map (fun f => f.val 2) == some r
/-- v2 and v3. -/
def gives64 (i : Instr) (a a' b b' : Word) (r r' : Word) : Bool :=
  (after (stV 0 a a' b b') i 0).map (fun f => (f.valAt 2 0, f.valAt 2 1)) == some (r, r')

/-- R77: wrapping, high words, saturation, and shifts that use five bits of the count. -/
theorem test_word_arithmetic : gives (.iadd fa3) 0 0xFFFFFFFF 2 1 = true ∧ gives (.isub fa3) 0 1 2 0xFFFFFFFF = true ∧
    gives (.imul fa3) 0 0xFFFFFFFF 3 0xFFFFFFFD = true ∧ gives (.imulhiS32 fa3) 0 0xFFFFFFFF 3 0xFFFFFFFF = true ∧
    gives (.imulhiN32 fa3) 0 0xFFFFFFFF 3 2 = true ∧ gives (.iminS32 fa3) 0 0xFFFFFFFF 1 0xFFFFFFFF = true ∧
    gives (.iminN32 fa3) 0 0xFFFFFFFF 1 1 = true ∧ gives (.imaxS32 fa3) 0 0xFFFFFFFF 1 1 = true ∧
    gives (.imaxN32 fa3) 0 0xFFFFFFFF 1 0xFFFFFFFF = true ∧ gives (.iaddsatS32 fa3) 0 0x7FFFFFFF 1 0x7FFFFFFF = true ∧
    gives (.isubsatS32 fa3) 0 0x80000000 1 0x80000000 = true := by decide
theorem test_word_bits : gives (.and fa3) 0 0xF0F0 0xFF00 0xF000 = true ∧ gives (.or fa3) 0 0xF0F0 0xFF00 0xFFF0 = true ∧
    gives (.xor fa3) 0 0xF0F0 0xFF00 0x0FF0 = true ∧ gives (.andn fa3) 0 0xF0F0 0xFF00 0x00F0 = true ∧ gives (.shl fa3) 0 1 33 2 = true ∧
    gives (.shr fa3) 0 0x80000000 32 0x80000000 = true ∧ gives (.sar fa3) 0 0x80000000 31 0xFFFFFFFF = true ∧
    gives (.rotl fa3) 0 0x80000001 1 3 = true ∧ gives (.iabs fu) 0 0x80000000 0 0x80000000 = true ∧ gives (.popc fu) 0 0xF0F0 0 8 = true ∧
    gives (.clz fu) 0 0 0 32 = true ∧ gives (.brev fu) 0 1 0 0x80000000 = true ∧ gives (.mov fu) 0 7 0 7 = true := by decide
/-- R80: 0x80 is −128 in every byte, and 4 × 16,384 is 65,536; R81: a field of 8 bits at bit 4, and one cut off at bit 31. -/
theorem test_bytes_and_fields : gives (.idot4S8 fa3) 1 0x80808080 0x80808080 65537 = true ∧ gives (.idot4S8 fa3) 0 0x000000FF 0x0000007F 0xFFFFFF81 = true ∧
    gives (.bfxN32 fa3) 0 0x00000FF0 0x0804 0xFF = true ∧ gives (.bfxS32 fa3) 0 0x00000FF0 0x0804 0xFFFFFFFF = true ∧
    gives (.bfxN32 fa3) 0 0xF0000000 0x081C 0xF = true ∧ gives (.bfi fa3) 0xFFFFFFFF 0 0x0804 0xFFFFF00F = true := by decide
/-- R78: the carry and the borrow cross the words. R90. -/
theorem test_pairs : gives64 (.iadd64 fa3) 0xFFFFFFFF 0 1 0 0 1 = true ∧ gives64 (.isub64 fa3) 0 1 1 0 0xFFFFFFFF 0 = true ∧
    gives64 (.imulwS32 fa3) 0xFFFFFFFF 0 3 0 0xFFFFFFFD 0xFFFFFFFF = true ∧ gives64 (.imulwN32 fa3) 0xFFFFFFFF 0 3 0 0xFFFFFFFD 2 = true ∧
    gives (.imad fa3 2 false .plain) 5 7 3 26 = true ∧ gives (.imad fa3 2 false .sat) 1 0x7FFFFFFF 1 0x7FFFFFFF = true := by decide
/-- R82, R88: an immediate of 0x80 is −128 and, as a count, 0. -/
theorem test_immediates : gives (.iaddi fb3) 0 128 0 0 = true ∧ gives (.andi fb3) 0 0x12345678 0 0x12345600 = true ∧
    gives (.ori fb3) 0 1 0 0xFFFFFF81 = true ∧ gives (.xori fb3) 0 0xFFFFFFFF 0 0x7F = true ∧ gives (.shli fb3) 0 3 0 3 = true ∧
    gives (.shri ⟨always, 2, 4, 31⟩) 0 0x80000000 0 1 = true ∧ gives (.sari ⟨always, 2, 4, 31⟩) 0 0x80000000 0 0xFFFFFFFF = true ∧
    gives (.movi always 2 0xDEADBEEF) 0 0 0 0xDEADBEEF = true := by decide
/-- R79: quotients toward zero, the remainder's sign that of the dividend, and a divisor of 0. -/
theorem test_divisions : pending (stV 0 0xFFFFFFF9 0 2 0) (.idivS32 fa3) = some (.regs [(66, 0xFFFFFFFD)]) ∧
    pending (stV 0 0xFFFFFFF9 0 2 0) (.iremS32 fa3) = some (.regs [(66, 0xFFFFFFFF)]) ∧
    pending (stV 0 7 0 0 0) (.idivN32 fa3) = some (.regs [(66, 0xFFFFFFFF)]) ∧ pending (stV 0 7 0 0 0) (.iremN32 fa3) = some (.regs [(66, 7)]) ∧
    pending (stV 0 0x80000000 0 0xFFFFFFFF 0) (.idivS32 fa3) = some (.regs [(66, 0x80000000)]) := by decide

/-! ## The worked examples of R303 and R288 -/

/-- The element of R303's example: 2^20, −2^20, 2^-20 and 1.25 x 2^-13 add up to 2^-13. -/
theorem test_mmaStep : mmaStep 0 [.fin false 1 20, .fin true 1 20, .fin false 1 (-20), .fin false 5 (-15)] = 0x39000000 := by
  decide +kernel
theorem test_mmaStepOf : mmaStepOf 0 [.fin false 1 20, .fin true 1 20, .fin false 1 (-20), .fin false 5 (-15)] = 0x39000000 := by
  decide +kernel
/-- The block of R288's example, 5.0 its largest magnitude: 11/16 stands for 0.7. -/
theorem test_makeBlock : makeBlock 6 1 .rne true (fun _ => 0) [.fin false 5 0, .fin false 11 (-4), .fin true 1 (-2)] =
    (0x60, [6, 1, 8]) := by decide +kernel
theorem test_formBlock : formBlock 6 1 .rne true (fun _ => 0) [.fin false 5 0, .fin false 11 (-4), .fin true 1 (-2)] =
    (0x60, [6, 1, 8]) := by decide +kernel

end Sys2Proof.Tests
end

section
/-! SUPPORT. The stochastic-rounding generator (R25, R26): a step keeps a state that is not zero, and a fibre that placement or
SPAWN makes is created with its seed. -/

namespace Sys2Proof.Machine

/-! ## The XOR-shift lines (R25) -/

/-- Every bit of such a word is a bit of the word `k` places lower, and so is false. -/
theorem eq_zero_of_xor_shiftLeft_eq_zero {n k : Nat} {x : BitVec n} (hk : 0 < k) (h : x ^^^ x <<< k = 0) : x = 0 := by
  have hx : x = x <<< k := BitVec.xor_eq_zero_iff.1 h
  have hbit (i : Nat) : x.getLsbD i = false := by
    induction i using Nat.strong_induction_on with
    | _ i ih =>
      rw [hx, BitVec.getLsbD_shiftLeft]
      by_cases hi : i < k
      · simp [hi]
      · simp [ih (i - k) (by omega)]
  exact BitVec.eq_of_getLsbD_eq fun i _ => by simp [hbit i]

/-- A shift to the right makes every number but zero smaller. -/
theorem eq_zero_of_xor_ushiftRight_eq_zero {n k : Nat} {x : BitVec n} (hk : 0 < k) (h : x ^^^ x >>> k = 0) : x = 0 := by
  have hx : x.toNat = x.toNat / 2 ^ k := by
    rw [← Nat.shiftRight_eq_div_pow, ← BitVec.toNat_ushiftRight, ← BitVec.xor_eq_zero_iff.1 h]
  refine BitVec.eq_of_toNat_eq (Nat.eq_zero_of_not_pos fun hpos => ?_)
  exact absurd hx (Nat.div_lt_self hpos (Nat.one_lt_two_pow hk.ne')).ne'

theorem genStep_ne_zero {x : Word} (h : x ≠ 0) : genStep x ≠ 0 := fun h3 =>
  have h2 := eq_zero_of_xor_shiftLeft_eq_zero (by decide) h3
  have h1 := eq_zero_of_xor_ushiftRight_eq_zero (by decide) h2
  h (eq_zero_of_xor_shiftLeft_eq_zero (by decide) h1)

/-- A state that is not zero never becomes zero. -/
theorem genStep_iterate_ne_zero {x : Word} (h : x ≠ 0) (n : Nat) : Nat.rec x (fun _ y => genStep y) n ≠ (0 : Word) := by
  induction n with
  | zero => exact h
  | succ n ih => exact genStep_ne_zero ih

/-! ## The seed (R26) -/

theorem genSeed_ne_zero (seed : DWord) (ident : Nat) : genSeed seed ident ≠ 0 := by
  unfold genSeed
  dsimp only
  split
  · decide
  · assumption

/-! ## Fibres of a new warp (R26, R178) -/

theorem exists_of_nget?_map {α β : Type} (fn : β → Nat) (val : β → α) {l : List β} {k : Nat} {a : α}
    (h : nget? (l.map (fun b => (fn b, val b))) k = some a) : ∃ b ∈ l, fn b = k ∧ val b = a := by
  induction l with
  | nil => simp at h
  | cons b l ih =>
    rw [List.map_cons, nget?_cons] at h
    split at h
    · rename_i hk
      exact ⟨b, List.mem_cons_self, hk, Option.some.inj h⟩
    · obtain ⟨c, hc, he⟩ := ih h
      exact ⟨c, List.mem_cons_of_mem _ hc, he⟩

/-- Every fibre of a warp as it is created is the new fibre of its lane. -/
theorem Launch.newWarp_fibre? {l : Launch} {k : WarpKey} {lane : Lane} {f : Fibre} (h : (l.newWarp k).fibre? lane = some f) :
    f = l.newFibre k lane := by
  obtain ⟨b, -, rfl, rfl⟩ := exists_of_nget?_map (fun lane => lane) (l.newFibre k) h
  rfl

/-- Going on to the next word leaves the generator as it is. -/
@[simp] theorem Fibre.advance_gen (f : Fibre) (len : Nat) : (f.advance len).gen = f.gen := by
  unfold Fibre.advance
  dsimp only
  split <;> rfl

/-! ## Lanes that hold a fibre -/

theorem mem_keys_iff_nget? {α : Type} (m : NMap α) (k : Nat) : k ∈ m.map (·.1) ↔ (nget? m k).isSome = true := by
  induction m with
  | nil => simp
  | cons e m ih =>
    obtain ⟨j, a⟩ := e
    rw [List.map_cons, List.mem_cons, nget?_cons, ih]
    by_cases hj : j = k
    · simp [hj]
    · simp [hj, Ne.symm hj]

theorem Warp.mem_live {w : Warp} {l : Lane} : l ∈ w.live ↔ (w.fibre? l).isSome = true := mem_keys_iff_nget? w.slots l

theorem Warp.not_live_contains (w : Warp) (l : Lane) : (!w.live.contains l) = (w.fibre? l).isNone := by
  rw [Bool.eq_iff_iff, Bool.not_eq_true', ← Bool.not_eq_true, List.contains_iff_mem, mem_live]
  simp

end Sys2Proof.Machine

namespace Sys2Proof.Safety

open Sys2Proof.Machine Sys2Proof.Claims

variable {s : State} {iss : Issue} {w : Warp} {g : Guard} {u : Uses}

/-! ## The issue of SPAWN (R122, R123) -/

theorem mem_actors {e : Lane × Fibre} {g : Option Guard} (h : e ∈ actors iss w g) :
    e.1 ∈ acting iss w g ∧ w.fibre? e.1 = some e.2 := by
  rw [actors, ← context_fibres_eq] at h
  exact mem_context_fibres.1 h

/-- A new fibre has an empty lane of the warp, and its creator an occupied one. -/
theorem mem_spawns {e : Lane × Lane × Fibre} (h : e ∈ spawns s iss w g) :
    w.fibre? e.1 = none ∧ w.fibre? e.2.1 = some e.2.2 := by
  obtain ⟨hl, ha⟩ := List.of_mem_zip (show (e.1, e.2) ∈ _ from h)
  exact ⟨by simpa using (List.mem_filter.1 hl).2, (mem_actors ha).2⟩

/-- The warp after a SPAWN that makes the fibres `made`: each is in its lane, and its creator's vd names that lane. -/
def withSpawned (s : State) (iss : Issue) (d : Reg) (wo : Nat) (disp : Word) (made : List (Lane × Lane × Fibre)) (w : Warp) : Warp :=
  made.foldl (fun x e => (x.setFibre e.1 (child s iss wo disp e.1 e.2.2)).setFibre e.2.1 (e.2.2.setV d (BitVec.ofNat 32 e.1))) w

/-- A SPAWN whose creators have a window and find empty lanes enough changes only its warp, and every lane of its set goes on. -/
theorem Ready.spawn_done {d : Reg} {wo : Nat} {disp : Word} (h : Ready s iss w (some g) u)
    (hroom : ∀ e ∈ actors iss w (some g), e.2.wb + 8 * wo + 63 < w.alloc)
    (hfree : (spawns s iss w g).length = (actors iss w (some g)).length) :
    ∃ s1, (context iss w (some g)).spawn s d wo disp = .done s1 [] true false ∧
      s1.warp? iss.key = some (withSpawned s iss d wo disp (spawns s iss w g) w) ∧ s1.inject.arm = false := by
  have hfibres : (context iss w (some g)).fibres = actors iss w (some g) := context_fibres_eq
  have hpass : ∀ e ∈ actors iss w (some g), spawnCheck wo w.alloc e.2 = none := fun e he => by
    simp [spawnCheck, Nat.not_le.2 (hroom e he)]
  have hbad : (actors iss w (some g)).filterMap (fun e => (spawnCheck wo w.alloc e.2).map (fun t => (e.1, t))) = [] :=
    List.filterMap_eq_nil_iff.2 fun e he => by rw [hpass e he]; rfl
  have hgood : (actors iss w (some g)).filter (fun e => (spawnCheck wo w.alloc e.2).isNone) = actors iss w (some g) :=
    List.filter_eq_self.2 fun e he => by rw [hpass e he]; rfl
  have hkey : (context iss w (some g)).key = iss.key := rfl
  have hw : (context iss w (some g)).w = w := rfl
  have hempty : (List.range (s.widthOf iss.key)).filter (fun l => !w.live.contains l) = emptySlots s iss w :=
    List.filter_congr fun l _ => w.not_live_contains l
  have hzip : (emptySlots s iss w).zip (actors iss w (some g)) = spawns s iss w g := rfl
  simp only [Ctx.spawn, hfibres, hkey, hw, hbad, hgood, hempty, List.foldl_nil, List.map_nil]
  by_cases hnone : actors iss w (some g) = []
  · have hact : (context iss w (some g)).active = [] := by simpa [Ctx.fibres, hnone] using hfibres
    have hmade : spawns s iss w g = [] := by rw [← hzip, hnone, List.zip_nil_right]
    exact ⟨s, by simp [hnone, hact], by rw [hmade]; exact h.warp, h.unarmed⟩
  · have henough : ¬ (emptySlots s iss w).length < (actors iss w (some g)).length := by
      rw [← hzip, List.length_zip] at hfree
      omega
    rw [if_neg (by simpa using hnone), if_neg henough, hzip, s.modWarp_of _ h.warp]
    exact ⟨_, rfl, s.setWarp_warp?_self .., h.unarmed⟩

/-- What the issue of such a SPAWN leaves of its warp: the fibres of `withSpawned`, those of the set at the next word. -/
theorem Ready.spawn_fibres {d : Reg} {wo : Fin 64} {disp : Word}
    (h : Ready s iss w (some g) { src := [{ reg := 8 * wo.val, count := 64 }], dst := [vop d] })
    (hroom : ∀ e ∈ actors iss w (some g), e.2.wb + 8 * wo.val + 63 < w.alloc)
    (hfree : (spawns s iss w g).length = (actors iss w (some g)).length) :
    ∃ t w', exec (.spawn g d wo disp) s = .next t ∧ t.warp? iss.key = some w' ∧ ∀ l, w'.fibre? l =
      ((withSpawned s iss d wo.val disp (spawns s iss w g) w).fibre? l).map (fun f => if l ∈ iss.sel.lanes then f.advance iss.len else f) := by
  obtain ⟨s1, hact, hw1, hin⟩ := h.spawn_done (d := d) (disp := disp) hroom hfree
  have hissue : exec (.spawn g d wo disp) s = .next (s1.finish (context iss w (some g)) [] true false) :=
    congrArg Host.Outcome.next ((h.runIssue_eq _ _ _ (by simp)).trans (congrArg _ hact))
  rw [finish_eq hw1 hin] at hissue
  exact ⟨_, _, hissue, State.setWarp_warp?_self .., fun l => by simp [finished_fibre?]⟩

/-! ## The generators of the fibres that SPAWN makes (R26) -/

/-- The lane holds a fibre whose generator stands at the seed of its identity. -/
def Seeded (s : State) (iss : Issue) (w : Warp) (l : Lane) : Prop :=
  ∃ f, w.fibre? l = some f ∧ f.gen = genSeed (((s.launch? iss.key.lid).map (·.record.seed)).getD 0) (identity iss.key l)

theorem Seeded.setFibre_of_ne {l m : Lane} (f : Fibre) (h : Seeded s iss w l) (hm : l ≠ m) : Seeded s iss (w.setFibre m f) l := by
  rwa [Seeded, w.setFibre_fibre?_of_ne f hm]

theorem seeded_setFibre_child (wo : Nat) (disp : Word) (l : Lane) (f : Fibre) :
    Seeded s iss (w.setFibre l (child s iss wo disp l f)) l := ⟨_, w.setFibre_fibre?_self .., rfl⟩

/-- A lane that no creator has is seeded once it was, or once a fibre is made in it. -/
theorem seeded_withSpawned {d : Reg} {wo : Nat} {disp : Word} {l : Lane} {made : List (Lane × Lane × Fibre)}
    (hne : ∀ e ∈ made, l ≠ e.2.1) (hl : Seeded s iss w l ∨ l ∈ made.map (·.1)) :
    Seeded s iss (withSpawned s iss d wo disp made w) l := by
  induction made generalizing w with
  | nil => exact hl.resolve_right (by simp)
  | cons e made ih =>
    have hcreator : l ≠ e.2.1 := hne e List.mem_cons_self
    refine ih (fun e' he' => hne e' (List.mem_cons_of_mem _ he')) ?_
    by_cases he : l = e.1
    · subst he
      exact .inl ((seeded_setFibre_child wo disp _ _).setFibre_of_ne _ hcreator)
    · refine hl.imp (fun hs => (hs.setFibre_of_ne _ he).setFibre_of_ne _ hcreator) fun hm => ?_
      exact (List.mem_cons.1 hm).resolve_left he

end Sys2Proof.Safety

namespace Sys2Proof.Proofs

open Sys2Proof.Machine Sys2Proof.Safety Sys2Proof.Claims

/-- Settles O9: each of the three lines takes only zero to zero. -/
theorem generatorStep : Obligations.GeneratorStep := fun _ => ⟨rfl, genStep_ne_zero⟩

/-- Settles O10: the seed and its iterates by `genStep_iterate_ne_zero`, placement by the new fibre's definition, and SPAWN since
no later write of the same SPAWN goes to a new fibre's lane. -/
theorem generatorSeed : Obligations.GeneratorSeed := by
  refine ⟨fun seed k lane n => ⟨rfl, genStep_iterate_ne_zero (genSeed_ne_zero seed _) n⟩,
    fun l k lane f hf => by rw [Launch.newWarp_fibre? hf]; rfl, ?_⟩
  rintro s iss w i m ⟨g, d, wo, disp, rfl⟩ hm - hready hneed
  obtain rfl := Option.some.inj hm
  obtain ⟨hroom, hfree⟩ := hneed
  obtain ⟨t, w', hexec, hw', hfibre⟩ := hready.spawn_fibres hroom hfree
  refine ⟨t, w', hexec, hw', fun e he => ?_⟩
  have hapart : ∀ e' ∈ spawns s iss w g, e.1 ≠ e'.2.1 := fun e' he' heq => by
    have hnone := (mem_spawns he).1
    rw [heq, (mem_spawns he').2] at hnone
    cases hnone
  obtain ⟨f, hf, hgen⟩ : Seeded s iss (withSpawned s iss d wo.val disp (spawns s iss w g) w) e.1 :=
    seeded_withSpawned hapart (.inr (List.mem_map_of_mem he))
  refine ⟨_, by rw [hfibre, hf]; rfl, ?_⟩
  split
  · exact (f.advance_gen iss.len).trans hgen
  · exact hgen

end Sys2Proof.Proofs
end

section
/-! SUPPORT. Words of format F-A (R57, R58), how such a word is decoded, and the byte dot product (R80). -/

namespace Sys2Proof

/-! ## Fields of a word -/

theorem flag_toNat {n : Nat} (x : BitVec n) (lo : Nat) : flag x.toNat lo = x.getLsbD lo := by
  rw [BitVec.getLsbD, Nat.testBit_eq_decide_div_mod_eq]
  exact Bool.beq_eq_decide_eq ..

theorem reg_toNat {n : Nat} (x : BitVec n) (lo : Nat) : reg x.toNat lo = (x.extractLsb' lo 6).toFin :=
  Fin.ext (by simp [reg, Nat.shiftRight_eq_div_pow])

theorem p3_toNat {n : Nat} (x : BitVec n) (lo : Nat) : p3 x.toNat lo = (x.extractLsb' lo 3).toFin :=
  Fin.ext (by simp [p3, Nat.shiftRight_eq_div_pow])

/-- The fields that the decoder takes from a word under format F-A. -/
theorem fmtA_toNat (w : Word) : fmtA w.toNat =
    { g := ⟨w.getLsbD 23, (w.extractLsb' 20 3).toFin⟩, d := (w.extractLsb' 14 6).toFin, a := (w.extractLsb' 8 6).toFin,
      b := (w.extractLsb' 2 6).toFin, fa := w.getLsbD 1, fb := w.getLsbD 0 } := by
  simp only [fmtA, guard, flag_toNat, reg_toNat, p3_toNat]

/-- The eight bits of the opcode are the number above the fields. -/
theorem div_eq_of_opcode {w : Word} {c : BitVec 8} (h : w.extractLsb' 24 8 = c) : w.toNat / 16777216 = c.toNat := by
  rw [← h, BitVec.extractLsb'_toNat, Nat.shiftRight_eq_div_pow]
  exact (Nat.mod_eq_of_lt (by omega)).symm

/-! ## The words of format F-A -/

theorem toNat_flag (w lo : Nat) : (flag w lo).toNat = w / 2 ^ lo % 2 := by
  rcases Nat.mod_two_eq_zero_or_one (w / 2 ^ lo) with h | h <;> simp [flag, h]

theorem encGuard_guard (w : Nat) : encGuard (guard w) = w / 1048576 % 16 * 1048576 := by
  simp only [encGuard, guard, toNat_flag, p3, Fin.val_ofNat]
  omega

/-- Format F-A has no reserved bit: its fields are the whole of the word below the opcode. -/
theorem encA_fmtA (w : Nat) : encA (fmtA w) = w % 16777216 := by
  simp only [encA, fmtA, encGuard_guard, toNat_flag, reg, Fin.val_ofNat]
  omega

/-! ## Decoding -/

/-- A one-word instruction is decoded from its word when its fields are all of the word and pass the checks (R64). -/
theorem decodeWords_eq_ok {w : Word} (v : Word) {o : Opcode} {i : Instr} (ho : Opcode.ofCode (w.toNat / 16777216) = some o)
    (hi : extract o w.toNat v.toNat = some i) (h0 : encode0 i = w.toNat) (h1 : encode1 i = none) (hok : WellFormed i) :
    decodeWords w v = .ok i := by
  have hfields : fieldsOk i = true := hok
  simp [decodeWords, decodeNat, ho, hi, h0, h1, hfields]

/-- Every word of opcode 0x15 is an IDOT4.s8, since F-A has neither a reserved bit nor a reserved code (R58, R65). -/
theorem decodeWords_idot4S8 {w : Word} (v : Word) (h : w.extractLsb' 24 8 = 0x15) :
    decodeWords w v = .ok (.idot4S8 (fmtA w.toNat)) := by
  have hcode : w.toNat / 16777216 = Opcode.idot4S8.code := div_eq_of_opcode h
  refine decodeWords_eq_ok (o := .idot4S8) v (by rw [hcode]; rfl) rfl ?_ rfl rfl
  change Opcode.idot4S8.code * 16777216 + encA (fmtA w.toNat) = w.toNat
  rw [encA_fmtA, ← hcode]
  omega

end Sys2Proof

namespace Sys2Proof.Machine

/-- The four products one by one (R80). -/
theorem dot4_eq (d a b : Word) : dot4 d a b = BitVec.ofInt 32 (d.toInt +
    (a.extractLsb' 0 8).toInt * (b.extractLsb' 0 8).toInt + (a.extractLsb' 8 8).toInt * (b.extractLsb' 8 8).toInt +
    (a.extractLsb' 16 8).toInt * (b.extractLsb' 16 8).toInt + (a.extractLsb' 24 8).toInt * (b.extractLsb' 24 8).toInt) := rfl

end Sys2Proof.Machine

namespace Sys2Proof.Safety

open Sys2Proof.Machine Sys2Proof.Claims

/-- An instruction with the `accumulate` shape does what the meaning `acc` of its function says (R76). -/
theorem accumulate_completes {f : FmtA} {op : Word → Word → Word → Word} {m : Meaning} (hm : acc f op = some m) {s : State}
    {iss : Issue} {w : Warp} (h : Ready s iss w m.guard m.uses) :
    ∃ t, accumulate f s op = .next t ∧ Completes s t iss w (passing iss m.guard (fun _ x => m.effect x)) := by
  obtain rfl := Option.some.inj hm
  exact h.plain_completes _

/-- The one row of the table is IDOT4.s8, an accumulating instruction whose function is `dot4`. -/
theorem dotTable_eq_some {i : Instr} {m : Meaning} (h : dotTable i = some m) : ∃ f, i = .idot4S8 f ∧ acc f dot4 = some m := by
  unfold dotTable at h
  split at h
  next f => exact ⟨f, rfl, by simpa only [← dot4_eq] using h⟩
  next => cases h

end Sys2Proof.Safety

namespace Sys2Proof.Proofs

open Sys2Proof.Machine Sys2Proof.Safety Sys2Proof.Claims

/-- Settles O15: the opcode is IDOT4.s8's and its fields are all of the word below; the result is the accumulating shape's, with
`dot4` as its function. -/
theorem byteDotProduct : Obligations.ByteDotProduct := by
  refine ⟨fun w v h => fmtA_toNat w ▸ decodeWords_idot4S8 v h, fun i m hm s iss w hready => ?_⟩
  obtain ⟨f, rfl, hacc⟩ := dotTable_eq_some hm
  exact accumulate_completes hacc hready

end Sys2Proof.Proofs
end
